-- ==== Sys2Proof/Word.lean ====
section
/-! DEFINITION. The word types of the core (00_scope.md section 4): the 32-bit word of the command and response
streams, the pattern of a binary32 datum, and the complex sample. -/

namespace Sys2Proof

/-- One 8-bit unit of a transport (20_memory.md R84); the core itself has no bytes. -/
abbrev Byte := BitVec 8

/-- One word of the command and response streams (30_encoding.md R100). -/
abbrev Word := BitVec 32

/-- An IEEE 754 binary32 datum, carried as its pattern (00_scope.md R8). -/
abbrev F32 := BitVec 32

/-- A complex sample: in-phase and quadrature (00_scope.md section 4). -/
structure C32 where
  i : F32
  q : F32
deriving DecidableEq, Repr, Inhabited

/-- The sample (+0.0, +0.0). -/
def C32.zero : C32 := ⟨0#32, 0#32⟩

end Sys2Proof
end

