-- ==== Sys2Proof/Config.lean ====
section
/-! DEFINITION. What the build of the core fixes (00_scope.md R5): the numeric parameters as one record of plain
numbers, the constants the spec gives a value, and, as opaque constants without a body, the functions and the
values the spec leaves open. The operations that hold an open function to the properties the spec requires of it
stand in Machine/Float.lean and Machine/Cic.lean. -/

namespace Sys2Proof

/-- The OPEN build parameters of 00_scope.md R5 (93 U2), as one configuration record: "A model takes them as one
configuration record". It never changes (10_state.md R30). -/
structure Config where
  /-- `NSRC`, source slots, 1..256. -/
  nsrc : Nat
  /-- `CIC_ORDER`, Stage elements of each Decimating Stage, 1..8. -/
  cicOrder : Nat
  /-- `OUT_BLOCK`, samples of an output block, 1..65535. -/
  outBlock : Nat
  /-- `TAPS_MAX`, largest cleanup filter, 1..4095. -/
  tapsMax : Nat
  /-- `CACHE_CAP`, entries of the tap cache, 0..256. -/
  cacheCap : Nat
  /-- `QCAP`, buffers of a source queue, 1..65535. -/
  qcap : Nat
  /-- `BUF_MAX`, samples of a wideband buffer, 1..32767. -/
  bufMax : Nat
  /-- `DRAIN_CAP`, buffers drained by one DRAIN, 1..65535. -/
  drainCap : Nat
  /-- `EL_OFFSET`, early and late offset in samples, at least 1 (its upper bound depends on SPS and is tested by
  `PSK.CFG`, 42_psk.md R191). -/
  elOffset : Nat
  /-- `PPM_SCALE`, units of the ppm register for 1 ppm, at least 1. -/
  ppmScale : Nat
  /-- `NLISTEN`, listener ports, 0..16. -/
  nlisten : Nat
deriving DecidableEq, Repr

/-- The default column of 00_scope.md R5. DESIGN CHOICE, log 1 (unsafe): `State.reset` is built with it. -/
def Config.default : Config where
  nsrc := 4
  cicOrder := 1
  outBlock := 4
  tapsMax := 255
  cacheCap := 8
  qcap := 4
  bufMax := 32767
  drainCap := 2
  elOffset := 1
  ppmScale := 1
  nlisten := 2

/-- The legal column of 00_scope.md R5. -/
abbrev Config.Legal (c : Config) : Prop :=
  (1 ≤ c.nsrc ∧ c.nsrc ≤ 256) ∧ (1 ≤ c.cicOrder ∧ c.cicOrder ≤ 8) ∧ (1 ≤ c.outBlock ∧ c.outBlock ≤ 65535) ∧
  (1 ≤ c.tapsMax ∧ c.tapsMax ≤ 4095) ∧ c.cacheCap ≤ 256 ∧ (1 ≤ c.qcap ∧ c.qcap ≤ 65535) ∧
  (1 ≤ c.bufMax ∧ c.bufMax ≤ 32767) ∧ (1 ≤ c.drainCap ∧ c.drainCap ≤ 65535) ∧ 1 ≤ c.elOffset ∧
  1 ≤ c.ppmScale ∧ c.nlisten ≤ 16

/-- `P_MAX`, the largest prime of the prime table (00_scope.md R5, 92 D21). -/
def pMax : Nat := 2801

/-- `R_MAX`, the largest supported decimation ratio (00_scope.md R5, 92 D21). -/
def rMax : Nat := 2801

/-- `SPS_MIN` (00_scope.md R5). -/
def spsMin : Nat := 4

/-- `SPS_MAX` (00_scope.md R5). -/
def spsMax : Nat := 127

/-- The version number of the command set PFCIC-1 (46_sys.md R334). -/
def version : Word := 1#32

/-- The five binary32 operations of 00_scope.md R9, as names: they index the free pattern of a NaN result. -/
inductive FloatOp where
  | add | sub | mul | div | sqrt
deriving DecidableEq, Repr

/-- FREE VALUE (log 5). From it comes the sign and payload of the NaN that an operation of 00_scope.md R9 produces on these
operands; R10 leaves both unspecified. -/
opaque Config.nanPattern : FloatOp → F32 → F32 → F32

/-- FREE VALUE (log 10). What `f2i_floor` would give for a non-finite argument; 00_scope.md R12 applies it to
finite values only. -/
opaque Config.floorOfNonFinite : F32 → Int

/-- OPEN FUNCTION (log 6). The build's cosine before it is held to 00_scope.md R15. -/
opaque Config.fcosRaw : F32 → F32

/-- OPEN FUNCTION (log 6). The build's sine before it is held to 00_scope.md R15. -/
opaque Config.fsinRaw : F32 → F32

/-- OPEN FUNCTION (log 7). The build's oscillator cosine before it is held to 00_scope.md R16. -/
opaque Config.locosRaw : Word → F32

/-- OPEN FUNCTION (log 7). The build's oscillator sine before it is held to 00_scope.md R16. -/
opaque Config.losinRaw : Word → F32

/-- OPEN FUNCTION (log 8). The build's low-pass design (rate, ratio, pass, stop) before it is held to
41_cic.md R163. -/
opaque Config.designRaw : Word → BitVec 16 → Word → Word → Option (List F32)

end Sys2Proof
end

