-- ==== Sys2Proof/Machine/State.lean ====
section
/-! DEFINITION. The state of the core as plain data (10_state.md), its reset values (R70), and the reasons a step can
stop. -/

namespace Sys2Proof.Machine

/-! ### Source slots (10_state.md R40 to R58) -/

/-- `SRC.STATE` (R42). -/
inductive SrcState where
  | free | idle | running | stopped
deriving DecidableEq, Repr

/-- SRC registers of a slot (R41). -/
structure Src where
  /-- `SRC.STATE`, 2 bits. -/
  state : SrcState
  /-- `SRC.CH_FREQ`, S64. -/
  chFreq : BitVec 64
  /-- `SRC.CH_BW`, U32. -/
  chBw : Word
  /-- `SRC.CORR`, S32. -/
  corr : Word
  /-- `SRC.CONSUMER`. -/
  consumer : Bool
  /-- `SRC.TAPEN`. -/
  tapen : Bool
  /-- `SRC.Q`, buffers of samples, oldest first. -/
  q : List (List C32)
  /-- `SRC.OVF`. -/
  ovf : Bool
  /-- `SRC.OVF_COUNT`, U32, saturating. -/
  ovfCount : Word
deriving DecidableEq, Repr

/-- MIX registers of a slot (R45). -/
structure Mix where
  /-- `MIX.PHASE`, U32, units of 2^-32 turn. -/
  phase : Word
  /-- `MIX.INC`, U32. -/
  inc : Word
  /-- `MIX.CFGD`. -/
  cfgd : Bool
deriving DecidableEq, Repr

/-- One Stage element (R48). -/
structure Stage where
  /-- `BUF[0..f−2]`. -/
  buf : List C32
  /-- `IDX`, 0..f−2. -/
  idx : Nat
  /-- `SUM`. -/
  sum : C32
  /-- `GAIN`. -/
  gain : F32
deriving DecidableEq, Repr

/-- One Decimating Stage `k`: its factor `FACT[k]`, its Stage elements `ST[k]` and its counter `DCNT[k]` (R47, R48). -/
structure DecStage where
  /-- `FACT[k]`, U16. -/
  fact : BitVec 16
  /-- `ST[k][0..CIC_ORDER−1]`. -/
  st : List Stage
  /-- `DCNT[k]`, 0..f−1. -/
  dcnt : Nat
deriving DecidableEq, Repr

/-- CIC registers of a slot (R47, R48, R49). `NDS` and `L` are the lengths of `ds` and `taps` (log 11). -/
structure Cic where
  /-- `CIC.CFGD`. -/
  cfgd : Bool
  /-- `CIC.IN_RATE`, U32. -/
  inRate : Word
  /-- `CIC.R`, U16. -/
  r : BitVec 16
  /-- `CIC.PASS`, U32. -/
  pass : Word
  /-- `CIC.STOP`, U32. -/
  stop : Word
  /-- The Decimating Stages, in signal order. -/
  ds : List DecStage
  /-- `CIC.TAPS[0..L−1]`. -/
  taps : List F32
  /-- `CIC.X[0..L−1]`, newest first. -/
  x : List C32
  /-- `CIC.BLK[0..OUT_BLOCK−1]`. -/
  blk : List C32
  /-- `CIC.BLKN`, 0..OUT_BLOCK−1. -/
  blkn : Nat
deriving DecidableEq, Repr

/-- `CIC.NDS`, the number of Decimating Stages (R47). -/
def Cic.nds (c : Cic) : Nat := c.ds.length

/-- `CIC.L`, the cleanup filter's length (R49). -/
def Cic.len (c : Cic) : Nat := c.taps.length

/-- PSK registers of a slot (R52, R53). -/
structure Psk where
  /-- `PSK.CFGD`. -/
  cfgd : Bool
  /-- `PSK.ALPHA`. -/
  alpha : F32
  /-- `PSK.BETA`. -/
  beta : F32
  /-- `PSK.FMAX`. -/
  fmax : F32
  /-- `PSK.LPHASE`. -/
  lphase : F32
  /-- `PSK.LFREQ`. -/
  lfreq : F32
  /-- `PSK.SPS`, U8. -/
  sps : BitVec 8
  /-- `PSK.TED`: false Gardner, true early-late. -/
  ted : Bool
  /-- `PSK.GAIN_MU`. -/
  gainMu : F32
  /-- `PSK.GAIN_OMEGA`. -/
  gainOmega : F32
  /-- `PSK.MU`. -/
  mu : F32
  /-- `PSK.OMEGA`. -/
  omega : F32
  /-- `PSK.OMEGA_MIN`. -/
  omegaMin : F32
  /-- `PSK.OMEGA_MAX`. -/
  omegaMax : F32
  /-- `PSK.SKIP`, U16. -/
  skip : BitVec 16
  /-- `PSK.PREV`. -/
  prev : C32
  /-- `PSK.DL[0..2·SPS−1]`, newest first. -/
  dl : List C32
deriving DecidableEq, Repr

/-- The register group `S[s]` of a slot (R40). -/
structure Slot where
  src : Src
  mix : Mix
  cic : Cic
  psk : Psk
deriving DecidableEq, Repr

/-! ### Global registers -/

/-- FC registers (R32). -/
structure Fc where
  /-- `FC.FREQ`, S64. -/
  freq : BitVec 64
  /-- `FC.TUNED`, S64. -/
  tuned : BitVec 64
  /-- `FC.FREQ_VALID`. -/
  freqValid : Bool
  /-- `FC.MIN`, S64. -/
  min : BitVec 64
  /-- `FC.MAX`, S64. -/
  max : BitVec 64
  /-- `FC.PPM`, S32. -/
  ppm : Word
  /-- `FC.RATE`, U32. -/
  rate : Word
  /-- `FC.BLACKOUT`, U32. -/
  blackout : Word
  /-- `FC.UF_NUM`, U32. -/
  ufNum : Word
  /-- `FC.UF_DEN`, U32. -/
  ufDen : Word
  /-- `FC.LOCKED`. -/
  locked : Bool
  /-- `FC.LISTEN_MASK`, U16. -/
  listenMask : BitVec 16
deriving DecidableEq, Repr

/-- An entry of `ALLOC.ACTIVE` (R35). -/
structure Channel where
  /-- `FREQ`, S64. -/
  freq : BitVec 64
  /-- `BW`, U32. -/
  bw : Word
  /-- `SLOT`, U8. -/
  slot : BitVec 8
deriving DecidableEq, Repr

/-- An entry of `TAPCACHE` (R37); `L` is the length of `taps` (log 11). -/
structure CacheEntry where
  /-- `NUM`, U32. -/
  num : Word
  /-- `DEN`, U16. -/
  den : BitVec 16
  /-- `TAPS[0..L−1]`. -/
  taps : List F32
deriving DecidableEq, Repr

/-- The error registers (R66). -/
structure ErrRegs where
  /-- `ERRSTAT`, U8. -/
  stat : BitVec 8
  /-- `ERRINFO`, U32. -/
  info : Word
  /-- `ERRCNT`, U32, saturating. -/
  cnt : Word
deriving DecidableEq, Repr

/-! ### Output ports (R61 to R65) -/

/-- An item of `DEV` (R62). -/
inductive DevItem where
  | setFreq (tuned : BitVec 64)
  | setRate (rate : Word)
deriving DecidableEq, Repr

/-- An item `FREQ_CHANGE(freq, tuned)` of `EVT[l]` (R63). -/
structure FreqChange where
  freq : BitVec 64
  tuned : BitVec 64
deriving DecidableEq, Repr

/-- An item of `OUT[s]` (R64). -/
inductive OutItem where
  | block (x : List C32)
  | symbol (z : C32)
deriving DecidableEq, Repr

/-- An item `SNAPSHOT(dl, te, pe)` of `TAP[s]` (R65). -/
structure Snapshot where
  dl : List C32
  te : F32
  pe : F32
deriving DecidableEq, Repr

/-- The items emitted so far, oldest first, on each port. Ports are not state of the core (R61): no rule reads them
(log 9). -/
structure Ports where
  /-- `DEV` (R62). -/
  dev : List DevItem
  /-- `EVT[l]` (R63), one list a listener port. -/
  evt : List (List FreqChange)
  /-- `WARN`: the slots of its `OVERFLOW` items (R63). -/
  warn : List (BitVec 8)
  /-- `OUT[s]` (R64), one list a slot. -/
  out : List (List OutItem)
  /-- `TAP[s]` (R65), one list a slot. -/
  tap : List (List Snapshot)
deriving DecidableEq, Repr

/-! ### The machine -/

/-- The state of the core (R30), with the model's own fields `cfg`, `ports`, `cmd` and `resp`
(log 1, 2, 9). -/
structure State where
  /-- The build parameters (00_scope.md R5); no command writes them (log 1). -/
  cfg : Config
  fc : Fc
  /-- `ALLOC.ACTIVE` (R35). -/
  active : List Channel
  /-- `TAPCACHE` (R37). -/
  cache : List CacheEntry
  err : ErrRegs
  /-- `S[0..NSRC−1]` (R40). -/
  slots : List Slot
  ports : Ports
  /-- Command words presented and not yet consumed, in the total order of the agents' records (20_memory.md R82,
  R89; log 2). -/
  cmd : List Word
  /-- The responses given so far, oldest first (30_encoding.md R102; log 9). -/
  resp : List (List Word)
deriving DecidableEq, Repr

/-- Why the machine stops. -/
inductive Fault where
  /-- Raised by `step` when the command port holds a legal header but fewer operand words than it asks for: "a record
  cut short ... is not a command, and the core takes no step for it; the model has no transition" (20_memory.md R85,
  93 U5). Safe: the model stops where nothing is promised (log 4). -/
  | cutShort
deriving DecidableEq, Repr

/-- Why a command has no meaning here. -/
inductive Refusal where
  /-- A command without a meaning in the model, by its mnemonic; no arm of `exec` answers it. Safe: nothing can be
  proved of such a command. -/
  | notModelled (mnemonic : String)
deriving DecidableEq, Repr

/-- The outcome of a command or a step. -/
abbrev Result := Host.Outcome State Fault Refusal

/-! ### Reset values (R70, 70_reset_and_hazards.md R380) -/

/-- SRC registers after reset (R41). -/
def Src.reset : Src where
  state := .free
  chFreq := 0
  chBw := 0
  corr := 0
  consumer := false
  tapen := false
  q := []
  ovf := false
  ovfCount := 0

/-- MIX registers after reset (R45). -/
def Mix.reset : Mix where
  phase := 0
  inc := 0
  cfgd := false

/-- CIC registers after reset (R47 to R49): unconfigured, no array element. `BLKN`: DESIGN CHOICE 0, log 12. -/
def Cic.reset : Cic where
  cfgd := false
  inRate := 0
  r := 0
  pass := 0
  stop := 0
  ds := []
  taps := []
  x := []
  blk := []
  blkn := 0

/-- PSK registers after reset (R52, R53). -/
def Psk.reset : Psk where
  cfgd := false
  alpha := 0
  beta := 0
  fmax := 0
  lphase := 0
  lfreq := 0
  sps := 0
  ted := false
  gainMu := 0
  gainOmega := 0
  mu := 0
  omega := 0
  omegaMin := 0
  omegaMax := 0
  skip := 0
  prev := C32.zero
  dl := []

/-- A slot after reset: FREE, its units unconfigured (R380). -/
def Slot.reset : Slot := ⟨.reset, .reset, .reset, .reset⟩

/-- FC registers after reset (R32). -/
def Fc.reset : Fc where
  freq := 0
  tuned := 0
  freqValid := false
  min := 0
  max := 0
  ppm := 0
  rate := 0
  blackout := 0
  ufNum := 0
  ufDen := 1
  locked := false
  listenMask := 0

/-- Error registers after reset (R66). -/
def ErrRegs.reset : ErrRegs := ⟨0, 0, 0⟩

/-- Ports on which nothing has been emitted. -/
def Ports.silent (c : Config) : Ports where
  dev := []
  evt := List.replicate c.nlisten []
  warn := []
  out := List.replicate c.nsrc []
  tap := List.replicate c.nsrc []

/-- The core built with parameters `c`, right after power-on (R70, R381). -/
def State.resetWith (c : Config) : State where
  cfg := c
  fc := .reset
  active := []
  cache := []
  err := .reset
  slots := List.replicate c.nsrc .reset
  ports := .silent c
  cmd := []
  resp := []

/-- The machine right after reset (R70, R380), with the default build parameters of 00_scope.md R5 (log 1). -/
def State.reset : State := .resetWith .default

end Sys2Proof.Machine
end

