-- ==== Sys2Proof/Machine/Flags.lean ====
section
/-! DEFINITION. Status codes (60_exceptions.md R341) and the flag words that commands read out (43_fc.md R252,
45_src.md R311). The core has no arithmetic condition codes (10_state.md R67): no command sets a flag from a result, and
the status flags that exist are the register bits `FC.LOCKED`, `FC.FREQ_VALID`, `SRC.CONSUMER`, `SRC.TAPEN`,
`SRC.OVF`, `MIX.CFGD`, `CIC.CFGD`, `PSK.CFGD` and `PSK.TED`. -/

namespace Sys2Proof.Machine

/-- The status of a command (60_exceptions.md R341). -/
inductive Status where
  | ok | illegal | slot | state | stopped | notcfg | operand | ratio | filter | infeasible | duplicate | full
  | locked | range
deriving DecidableEq, Repr

/-- The 8-bit code of a status (60_exceptions.md R341). -/
def statusCode : Status → BitVec 8
  | .ok => 0x00
  | .illegal => 0x01
  | .slot => 0x02
  | .state => 0x03
  | .stopped => 0x04
  | .notcfg => 0x05
  | .operand => 0x06
  | .ratio => 0x10
  | .filter => 0x11
  | .infeasible => 0x20
  | .duplicate => 0x21
  | .full => 0x22
  | .locked => 0x30
  | .range => 0x31

/-- The 2-bit code of a source state (10_state.md R42). -/
def srcStateCode : SrcState → BitVec 2
  | .free => 0
  | .idle => 1
  | .running => 2
  | .stopped => 3

/-- The flags word of `FC.GETSTATE`: bit 0 LOCKED, bit 1 FREQ_VALID, others 0 (43_fc.md R252). -/
def fcFlags (fc : Fc) : Word := 0#30 ++ BitVec.ofBool fc.freqValid ++ BitVec.ofBool fc.locked

/-- The flags word of `SRC.STATUS`: bits 1:0 STATE, 2 OVF, 3 CONSUMER, 4 TAPEN, 5 MIX.CFGD, 6 CIC.CFGD, 7 PSK.CFGD,
others 0 (45_src.md R311). -/
def slotFlags (sl : Slot) : Word :=
  0#24 ++ BitVec.ofBool sl.psk.cfgd ++ BitVec.ofBool sl.cic.cfgd ++ BitVec.ofBool sl.mix.cfgd ++
    BitVec.ofBool sl.src.tapen ++ BitVec.ofBool sl.src.consumer ++ BitVec.ofBool sl.src.ovf ++
    srcStateCode sl.src.state

end Sys2Proof.Machine
end

