-- ==== Sys2Proof/Syntax.lean ====
section
/-! DEFINITION. The commands of the core, one constructor per row of spec/opcode_table.json (30_encoding.md R106),
with the fields and operands the row lists, and the pseudo-instructions of R113. -/

namespace Sys2Proof

/-- A PFCIC-1 command. `slot` is the header's SLOT field; 16-bit operands are its IMM field; S64 operands are
64-bit, U32 and S32 operands words; a block command carries its samples, their number is its IMM. -/
inductive Instr where
  | sysNop
  | sysReset
  | sysStatus
  | sysInfo
  | fcGetfreq
  | fcSetfreq (f : BitVec 64)
  | fcGetrate
  | fcSetrate (rate : Word)
  | fcSetppm (ppm : Word)
  | fcSetbounds (min max : BitVec 64)
  | fcSetblackout (bw : Word)
  | fcSetusable (num den : Word)
  | fcGetstate
  | fcListen (mask : BitVec 16)
  | allocGetsource (r : BitVec 16) (freq : BitVec 64) (bw pass stop : Word)
  | allocRelease (freq : BitVec 64)
  | allocQuery (index : BitVec 16)
  | srcStart (slot : BitVec 8)
  | srcStop (slot : BitVec 8)
  | srcDrain (slot : BitVec 8)
  | srcFeed (x : List C32)
  | srcStatus (slot : BitVec 8)
  | srcAttach (slot : BitVec 8) (consumer tap : Bool)
  | srcSetcorr (slot : BitVec 8) (corr : Word)
  | mixSetfreq (slot : BitVec 8) (f : BitVec 64) (rate : Word)
  | mixNext (slot : BitVec 8)
  | mixStep (slot : BitVec 8) (x : C32)
  | mixGetstate (slot : BitVec 8)
  | cicCfg (slot : BitVec 8) (r : BitVec 16) (rate pass stop : Word)
  | cicPush (slot : BitVec 8) (x : C32)
  | cicPushblk (slot : BitVec 8) (x : List C32)
  | cicGetcfg (slot : BitVec 8) (k : BitVec 16)
  | pskCfg (slot : BitVec 8) (sps : BitVec 8) (ted : Bool) (alpha beta fmax gainmu gainomega : F32)
  | pskStep (slot : BitVec 8) (x : C32)
  | pskStepblk (slot : BitVec 8) (x : List C32)
  | pskGetstate (slot : BitVec 8)
deriving DecidableEq, Repr

/-! ### Pseudo-instructions (30_encoding.md R113) -/

/-- `NOP` is `SYS.NOP`. -/
abbrev pseudoNop : Instr := .sysNop

/-- `FC.SETUSABLEPCT p` is `FC.SETUSABLE num=p, den=100`. -/
abbrev pseudoSetusablepct (p : Word) : Instr := .fcSetusable p 100#32

/-- `FC.UNLISTEN` is `FC.LISTEN mask=0`. -/
abbrev pseudoUnlisten : Instr := .fcListen 0#16

/-- `CIC.PUSH0 s<k>` is `CIC.PUSH s<k>, x=(0.0, 0.0)`. -/
abbrev pseudoPush0 (slot : BitVec 8) : Instr := .cicPush slot C32.zero

/-- `SRC.DETACH s<k>` is `SRC.ATTACH s<k>, consumer=0, tap=0`. -/
abbrev pseudoDetach (slot : BitVec 8) : Instr := .srcAttach slot false false

end Sys2Proof
end

