-- ==== Sys2Proof/Decode.lean ====
section
/-! DEFINITION. The decoder of command records (30_encoding.md R100 to R108), total on every list of words and
rejecting by name; after it the encoder, written from the same tables. -/

namespace Sys2Proof

/-! ### Fields and operand formats (R100, R101) -/

/-- `OPC`, the opcode byte: header bits 31:24 (R100). -/
def opcOf (h : Word) : BitVec 8 := h.extractLsb' 24 8

/-- `SLOT`: header bits 23:16 (R100). -/
def slotOf (h : Word) : BitVec 8 := h.extractLsb' 16 8

/-- `IMM`: header bits 15:0, unsigned (R100). -/
def immOf (h : Word) : BitVec 16 := h.extractLsb' 0 16

/-- A 64-bit operand from its two words, low 32 bits first (R101). -/
def join64 (lo hi : Word) : BitVec 64 := hi ++ lo

/-- The low word of a 64-bit value (R101). -/
def lo64 (v : BitVec 64) : Word := v.extractLsb' 0 32

/-- The high word of a 64-bit value (R101). -/
def hi64 (v : BitVec 64) : Word := v.extractLsb' 32 32

/-- `C32[n]` operands: two words a sample, in-phase first (R101). -/
def samplesOf : List Word → List C32
  | a :: b :: ws => ⟨a, b⟩ :: samplesOf ws
  | _ => []

/-- The words of a `C32[n]` operand (R101). -/
def wordsOfSamples : List C32 → List Word
  | [] => []
  | z :: zs => z.i :: z.q :: wordsOfSamples zs

/-! ### The transport of 20_memory.md R84 -/

/-- One word from four bytes, least significant first (20_memory.md R84). -/
def wordOfBytes (b0 b1 b2 b3 : Byte) : Word := b3 ++ b2 ++ b1 ++ b0

/-- The bytes of a word, least significant first (20_memory.md R84). -/
def bytesOfWord (w : Word) : List Byte :=
  [w.extractLsb' 0 8, w.extractLsb' 8 8, w.extractLsb' 16 8, w.extractLsb' 24 8]

/-- The whole words a byte transport has delivered (20_memory.md R84, R85: the transport delivers whole words; a
trailing part of a word is not delivered). -/
def wordsOfBytes : List Byte → List Word
  | b0 :: b1 :: b2 :: b3 :: bs => wordOfBytes b0 b1 b2 b3 :: wordsOfBytes bs
  | _ => []

/-! ### The opcode table (R106, R107) -/

/-- A row of the opcode table: its mnemonic and its match and mask words (R107). -/
structure OpcodeRow where
  mnemonic : String
  matchBits : Word
  maskBits : Word
deriving DecidableEq, Repr

/-- Rows of the SYS, FC and ALLOC units (30_encoding.md R106, R107). -/
def opcodeRowsControl : List OpcodeRow :=
  [⟨"SYS.NOP", 0x00000000#32, 0xFFFFFFFF#32⟩,
   ⟨"SYS.RESET", 0x01000000#32, 0xFFFFFFFF#32⟩,
   ⟨"SYS.STATUS", 0x02000000#32, 0xFFFFFFFF#32⟩,
   ⟨"SYS.INFO", 0x03000000#32, 0xFFFFFFFF#32⟩,
   ⟨"FC.GETFREQ", 0x10000000#32, 0xFFFFFFFF#32⟩,
   ⟨"FC.SETFREQ", 0x11000000#32, 0xFFFFFFFF#32⟩,
   ⟨"FC.GETRATE", 0x12000000#32, 0xFFFFFFFF#32⟩,
   ⟨"FC.SETRATE", 0x13000000#32, 0xFFFFFFFF#32⟩,
   ⟨"FC.SETPPM", 0x14000000#32, 0xFFFFFFFF#32⟩,
   ⟨"FC.SETBOUNDS", 0x15000000#32, 0xFFFFFFFF#32⟩,
   ⟨"FC.SETBLACKOUT", 0x16000000#32, 0xFFFFFFFF#32⟩,
   ⟨"FC.SETUSABLE", 0x17000000#32, 0xFFFFFFFF#32⟩,
   ⟨"FC.GETSTATE", 0x18000000#32, 0xFFFFFFFF#32⟩,
   ⟨"FC.LISTEN", 0x19000000#32, 0xFFFF0000#32⟩,
   ⟨"ALLOC.GETSOURCE", 0x20000000#32, 0xFFFF0000#32⟩,
   ⟨"ALLOC.RELEASE", 0x21000000#32, 0xFFFFFFFF#32⟩,
   ⟨"ALLOC.QUERY", 0x22000000#32, 0xFFFF0000#32⟩]

/-- Rows of the SRC, MIX, CIC and PSK units (30_encoding.md R106, R107). -/
def opcodeRowsSlot : List OpcodeRow :=
  [⟨"SRC.START", 0x30000000#32, 0xFF00FFFF#32⟩,
   ⟨"SRC.STOP", 0x31000000#32, 0xFF00FFFF#32⟩,
   ⟨"SRC.DRAIN", 0x32000000#32, 0xFF00FFFF#32⟩,
   ⟨"SRC.FEED", 0x33000000#32, 0xFFFF0000#32⟩,
   ⟨"SRC.STATUS", 0x34000000#32, 0xFF00FFFF#32⟩,
   ⟨"SRC.ATTACH", 0x35000000#32, 0xFF00FFFC#32⟩,
   ⟨"SRC.SETCORR", 0x36000000#32, 0xFF00FFFF#32⟩,
   ⟨"MIX.SETFREQ", 0x40000000#32, 0xFF00FFFF#32⟩,
   ⟨"MIX.NEXT", 0x41000000#32, 0xFF00FFFF#32⟩,
   ⟨"MIX.STEP", 0x42000000#32, 0xFF00FFFF#32⟩,
   ⟨"MIX.GETSTATE", 0x43000000#32, 0xFF00FFFF#32⟩,
   ⟨"CIC.CFG", 0x50000000#32, 0xFF000000#32⟩,
   ⟨"CIC.PUSH", 0x51000000#32, 0xFF00FFFF#32⟩,
   ⟨"CIC.PUSHBLK", 0x52000000#32, 0xFF000000#32⟩,
   ⟨"CIC.GETCFG", 0x53000000#32, 0xFF000000#32⟩,
   ⟨"PSK.CFG", 0x60000000#32, 0xFF00FE00#32⟩,
   ⟨"PSK.STEP", 0x61000000#32, 0xFF00FFFF#32⟩,
   ⟨"PSK.STEPBLK", 0x62000000#32, 0xFF000000#32⟩,
   ⟨"PSK.GETSTATE", 0x63000000#32, 0xFF00FFFF#32⟩]

/-- The opcode table: 36 rows (R106). -/
def opcodeTable : List OpcodeRow := opcodeRowsControl ++ opcodeRowsSlot

/-- A header selects a row when it agrees with it under the row's mask (R107). -/
def OpcodeRow.selectedBy (r : OpcodeRow) (h : Word) : Bool := h &&& r.maskBits == r.matchBits

/-! ### Length and legality of a header (R103, R108) -/

/-- `n` operand words when the SLOT and IMM fields are both zero, as they must be (R107, R108). -/
def plainForm (h : Word) (n : Nat) : Option Nat :=
  if slotOf h = 0#8 ∧ immOf h = 0#16 then some n else none

/-- `n` operand words when the SLOT field, which the command lacks, is zero. -/
def immForm (h : Word) (n : Nat) : Option Nat :=
  if slotOf h = 0#8 then some n else none

/-- `n` operand words when those bits of IMM that must be zero are zero. -/
def slotForm (h : Word) (zeroBits : BitVec 16) (n : Nat) : Option Nat :=
  if immOf h &&& zeroBits = 0#16 then some n else none

/-- The number of operand words of a block command: `2·IMM` (R103). -/
def blockWords (h : Word) : Nat := 2 * (immOf h).toNat

/-- The number of operand words a header asks for (R103, R106), or `none` for an illegal header: a reserved unit,
a function not listed, or a must-be-zero field that is not zero (R108). -/
def operandWords (h : Word) : Option Nat :=
  match (opcOf h).toNat with
  | 0x00 => plainForm h 0
  | 0x01 => plainForm h 0
  | 0x02 => plainForm h 0
  | 0x03 => plainForm h 0
  | 0x10 => plainForm h 0
  | 0x11 => plainForm h 2
  | 0x12 => plainForm h 0
  | 0x13 => plainForm h 1
  | 0x14 => plainForm h 1
  | 0x15 => plainForm h 4
  | 0x16 => plainForm h 1
  | 0x17 => plainForm h 2
  | 0x18 => plainForm h 0
  | 0x19 => immForm h 0
  | 0x20 => immForm h 5
  | 0x21 => plainForm h 2
  | 0x22 => immForm h 0
  | 0x30 => slotForm h 0xFFFF#16 0
  | 0x31 => slotForm h 0xFFFF#16 0
  | 0x32 => slotForm h 0xFFFF#16 0
  | 0x33 => immForm h (blockWords h)
  | 0x34 => slotForm h 0xFFFF#16 0
  | 0x35 => slotForm h 0xFFFC#16 0
  | 0x36 => slotForm h 0xFFFF#16 1
  | 0x40 => slotForm h 0xFFFF#16 3
  | 0x41 => slotForm h 0xFFFF#16 0
  | 0x42 => slotForm h 0xFFFF#16 2
  | 0x43 => slotForm h 0xFFFF#16 0
  | 0x50 => some 3
  | 0x51 => slotForm h 0xFFFF#16 2
  | 0x52 => some (blockWords h)
  | 0x53 => some 0
  | 0x60 => slotForm h 0xFE00#16 5
  | 0x61 => slotForm h 0xFFFF#16 2
  | 0x62 => some (blockWords h)
  | 0x63 => slotForm h 0xFFFF#16 0
  | _ => none

/-- The command that a legal header and its operand words stand for (R101, R106); `none` for operand words that are
not as many as the header asks for. -/
def instrOf (h : Word) (ops : List Word) : Option Instr :=
  match (opcOf h).toNat, ops with
  | 0x00, [] => some .sysNop
  | 0x01, [] => some .sysReset
  | 0x02, [] => some .sysStatus
  | 0x03, [] => some .sysInfo
  | 0x10, [] => some .fcGetfreq
  | 0x11, [lo, hi] => some (.fcSetfreq (join64 lo hi))
  | 0x12, [] => some .fcGetrate
  | 0x13, [rate] => some (.fcSetrate rate)
  | 0x14, [ppm] => some (.fcSetppm ppm)
  | 0x15, [lo, hi, lo', hi'] => some (.fcSetbounds (join64 lo hi) (join64 lo' hi'))
  | 0x16, [bw] => some (.fcSetblackout bw)
  | 0x17, [num, den] => some (.fcSetusable num den)
  | 0x18, [] => some .fcGetstate
  | 0x19, [] => some (.fcListen (immOf h))
  | 0x20, [lo, hi, bw, pass, stop] => some (.allocGetsource (immOf h) (join64 lo hi) bw pass stop)
  | 0x21, [lo, hi] => some (.allocRelease (join64 lo hi))
  | 0x22, [] => some (.allocQuery (immOf h))
  | 0x30, [] => some (.srcStart (slotOf h))
  | 0x31, [] => some (.srcStop (slotOf h))
  | 0x32, [] => some (.srcDrain (slotOf h))
  | 0x33, ws => some (.srcFeed (samplesOf ws))
  | 0x34, [] => some (.srcStatus (slotOf h))
  | 0x35, [] => some (.srcAttach (slotOf h) ((immOf h).getLsbD 0) ((immOf h).getLsbD 1))
  | 0x36, [corr] => some (.srcSetcorr (slotOf h) corr)
  | 0x40, [lo, hi, rate] => some (.mixSetfreq (slotOf h) (join64 lo hi) rate)
  | 0x41, [] => some (.mixNext (slotOf h))
  | 0x42, [xi, xq] => some (.mixStep (slotOf h) ⟨xi, xq⟩)
  | 0x43, [] => some (.mixGetstate (slotOf h))
  | 0x50, [rate, pass, stop] => some (.cicCfg (slotOf h) (immOf h) rate pass stop)
  | 0x51, [xi, xq] => some (.cicPush (slotOf h) ⟨xi, xq⟩)
  | 0x52, ws => some (.cicPushblk (slotOf h) (samplesOf ws))
  | 0x53, [] => some (.cicGetcfg (slotOf h) (immOf h))
  | 0x60, [alpha, beta, fmax, gainmu, gainomega] =>
      some (.pskCfg (slotOf h) ((immOf h).extractLsb' 0 8) ((immOf h).getLsbD 8) alpha beta fmax gainmu gainomega)
  | 0x61, [xi, xq] => some (.pskStep (slotOf h) ⟨xi, xq⟩)
  | 0x62, ws => some (.pskStepblk (slotOf h) (samplesOf ws))
  | 0x63, [] => some (.pskGetstate (slotOf h))
  | _, _ => none

/-! ### Decoding a stream of words -/

/-- What stands at the head of a stream of command words. -/
inductive Decoded where
  /-- A whole record of a command, and the words after it. -/
  | command (i : Instr) (rest : List Word)
  /-- A header that selects no command: one word is consumed (R103, R108). -/
  | illegal (header : Word) (rest : List Word)
  /-- A legal header with fewer operand words after it than it asks for (20_memory.md R85). -/
  | cutShort
  /-- No word at all. -/
  | empty
deriving DecidableEq, Repr

/-- The decoder reads the header, which fixes the length, before it reads an operand (R103). -/
def decode : List Word → Decoded
  | [] => .empty
  | h :: ws =>
    match operandWords h with
    | none => .illegal h ws
    | some n =>
      if ws.length < n then .cutShort
      else
        match instrOf h (ws.take n) with
        | some i => .command i (ws.drop n)
        | none => .illegal h ws

/-- The words of one record whose bits are `w`, bit 0 the least significant bit of the header: the header, then as
many operand words as it asks for, every bit from `nbits` on being 0. -/
def recordWords (nbits w : Nat) : List Word :=
  let h := BitVec.ofNat 32 (w % 2 ^ nbits)
  h :: (List.range ((operandWords h).getD 0)).map fun k => BitVec.ofNat 32 ((w % 2 ^ nbits) >>> (32 * (k + 1)))

/-- The command the decoder reads from the record whose bits are `w`. -/
def decodeTableWord (nbits w : Nat) : Option Instr :=
  match decode (recordWords nbits w) with
  | .command i _ => some i
  | _ => none

/-! ### The encoder -/

/-- A header from its fields (R100). -/
def headerWord (opc slot : BitVec 8) (imm : BitVec 16) : Word := opc ++ slot ++ imm

/-- The IMM field of `SRC.ATTACH`: bit 0 consumer, bit 1 tap (R106). -/
def attachImm (consumer tap : Bool) : BitVec 16 := 0#14 ++ BitVec.ofBool tap ++ BitVec.ofBool consumer

/-- The IMM field of `PSK.CFG`: bits 7:0 SPS, bit 8 TED (R106). -/
def pskImm (sps : BitVec 8) (ted : Bool) : BitVec 16 := 0#7 ++ BitVec.ofBool ted ++ sps

/-- The IMM field of a block command: its number of samples (R103). -/
def blockImm (x : List C32) : BitVec 16 := BitVec.ofNat 16 x.length

/-- The header word of a command (R100, R106). It is also what `ERRINFO` records when the command fails
(60_exceptions.md R346). -/
def Instr.header : Instr → Word
  | .sysNop => headerWord 0x00 0 0
  | .sysReset => headerWord 0x01 0 0
  | .sysStatus => headerWord 0x02 0 0
  | .sysInfo => headerWord 0x03 0 0
  | .fcGetfreq => headerWord 0x10 0 0
  | .fcSetfreq _ => headerWord 0x11 0 0
  | .fcGetrate => headerWord 0x12 0 0
  | .fcSetrate _ => headerWord 0x13 0 0
  | .fcSetppm _ => headerWord 0x14 0 0
  | .fcSetbounds _ _ => headerWord 0x15 0 0
  | .fcSetblackout _ => headerWord 0x16 0 0
  | .fcSetusable _ _ => headerWord 0x17 0 0
  | .fcGetstate => headerWord 0x18 0 0
  | .fcListen mask => headerWord 0x19 0 mask
  | .allocGetsource r _ _ _ _ => headerWord 0x20 0 r
  | .allocRelease _ => headerWord 0x21 0 0
  | .allocQuery index => headerWord 0x22 0 index
  | .srcStart slot => headerWord 0x30 slot 0
  | .srcStop slot => headerWord 0x31 slot 0
  | .srcDrain slot => headerWord 0x32 slot 0
  | .srcFeed x => headerWord 0x33 0 (blockImm x)
  | .srcStatus slot => headerWord 0x34 slot 0
  | .srcAttach slot consumer tap => headerWord 0x35 slot (attachImm consumer tap)
  | .srcSetcorr slot _ => headerWord 0x36 slot 0
  | .mixSetfreq slot _ _ => headerWord 0x40 slot 0
  | .mixNext slot => headerWord 0x41 slot 0
  | .mixStep slot _ => headerWord 0x42 slot 0
  | .mixGetstate slot => headerWord 0x43 slot 0
  | .cicCfg slot r _ _ _ => headerWord 0x50 slot r
  | .cicPush slot _ => headerWord 0x51 slot 0
  | .cicPushblk slot x => headerWord 0x52 slot (blockImm x)
  | .cicGetcfg slot k => headerWord 0x53 slot k
  | .pskCfg slot sps ted _ _ _ _ _ => headerWord 0x60 slot (pskImm sps ted)
  | .pskStep slot _ => headerWord 0x61 slot 0
  | .pskStepblk slot x => headerWord 0x62 slot (blockImm x)
  | .pskGetstate slot => headerWord 0x63 slot 0

/-- The operand words of a command, in the order of its row (R101, R106). -/
def Instr.operands : Instr → List Word
  | .fcSetfreq f => [lo64 f, hi64 f]
  | .fcSetrate rate => [rate]
  | .fcSetppm ppm => [ppm]
  | .fcSetbounds min max => [lo64 min, hi64 min, lo64 max, hi64 max]
  | .fcSetblackout bw => [bw]
  | .fcSetusable num den => [num, den]
  | .allocGetsource _ freq bw pass stop => [lo64 freq, hi64 freq, bw, pass, stop]
  | .allocRelease freq => [lo64 freq, hi64 freq]
  | .srcFeed x => wordsOfSamples x
  | .srcSetcorr _ corr => [corr]
  | .mixSetfreq _ f rate => [lo64 f, hi64 f, rate]
  | .mixStep _ x => [x.i, x.q]
  | .cicCfg _ _ rate pass stop => [rate, pass, stop]
  | .cicPush _ x => [x.i, x.q]
  | .cicPushblk _ x => wordsOfSamples x
  | .pskCfg _ _ _ alpha beta fmax gainmu gainomega => [alpha, beta, fmax, gainmu, gainomega]
  | .pskStep _ x => [x.i, x.q]
  | .pskStepblk _ x => wordsOfSamples x
  | .sysNop | .sysReset | .sysStatus | .sysInfo | .fcGetfreq | .fcGetrate | .fcGetstate | .fcListen _ => []
  | .allocQuery _ | .srcStart _ | .srcStop _ | .srcDrain _ | .srcStatus _ | .srcAttach _ _ _ => []
  | .mixNext _ | .mixGetstate _ | .cicGetcfg _ _ | .pskGetstate _ => []

/-- The record of a command: header first, then its operand words (R100). -/
def encode (i : Instr) : List Word := i.header :: i.operands

end Sys2Proof
end

