-- ==== Sys2Proof/Machine/Float.lean ====
section
/-! DEFINITION. IEEE 754 binary32 arithmetic (00_scope.md R8 to R18): every operation correctly rounded to nearest,
ties to even, rounded once; the open trigonometric functions held to R15 and R16; the complex helpers of R17.

A finite datum is read exactly, as an integer number of units of 2^-149 (the smallest subnormal), so that an
operation computes its exact result as an integer or a fraction and rounds it once. -/

namespace Sys2Proof.Machine

/-! ### Reading a datum (R8) -/

/-- Bits 30:0, exponent and fraction: they order the magnitudes. -/
def magBits (a : F32) : Nat := a.toNat % 2 ^ 31

/-- The sign bit, bit 31. -/
def signBit (a : F32) : Bool := a.msb

/-- `isNaN` (R10): exponent all ones and a fraction that is not zero. -/
def isNaN (a : F32) : Bool := 0x7F800000 < magBits a

/-- An infinity. -/
def isInf (a : F32) : Bool := magBits a = 0x7F800000

/-- Neither an infinity nor a NaN. -/
def isFinite (a : F32) : Bool := magBits a < 0x7F800000

/-- A zero of either sign. -/
def isZero (a : F32) : Bool := magBits a = 0

/-- The magnitude of a finite datum in units of 2^-149. -/
def magUnits (a : F32) : Nat :=
  if magBits a / 2 ^ 23 = 0 then magBits a
  else (2 ^ 23 + magBits a % 2 ^ 23) * 2 ^ (magBits a / 2 ^ 23 - 1)

/-- The value of a finite datum in units of 2^-149. -/
def units (a : F32) : Int := if signBit a then -(magUnits a : Int) else magUnits a

/-- The value of a finite datum (R8). -/
def valueOf (a : F32) : ℚ := (units a : ℚ) / 2 ^ 149

/-! ### Rounding (R9) -/

/-- The datum of that sign and those magnitude bits. -/
def ofSignMag (neg : Bool) (bits : Nat) : F32 := BitVec.ofNat 32 ((if neg then 2 ^ 31 else 0) + bits)

/-- The infinity of that sign. -/
def infOf (neg : Bool) : F32 := ofSignMag neg 0x7F800000

/-- The zero of that sign. -/
def zeroOf (neg : Bool) : F32 := ofSignMag neg 0

/-- The quantum of the datum range that holds `n / d` units, as an exponent of two: 0 for subnormals and the lowest
normal range. -/
def quantumExp (n d : Nat) : Nat := (n / d).log2 - 23

/-- Magnitude bits of `n / d` units of 2^-149 rounded to nearest, ties to even (R9); a magnitude past the largest
finite datum rounds to the infinity. -/
def roundBits (n d : Nat) : Nat :=
  let q := quantumExp n d
  let step := d * 2 ^ q
  let m := n / step
  let r := n % step
  let up := step < 2 * r ∨ (2 * r = step ∧ m % 2 = 1)
  min 0x7F800000 (q * 2 ^ 23 + (if up then m + 1 else m))

/-- The datum nearest to `± n / d` units of 2^-149. -/
def roundUnits (neg : Bool) (n d : Nat) : F32 := ofSignMag neg (roundBits n d)

/-- The integer square root, digit by digit from bit `b - 1` down, on top of the digits already found. -/
def isqrtFrom (n : Nat) : Nat → Nat → Nat
  | 0, r => r
  | b + 1, r => isqrtFrom n b (if (r + 2 ^ b) * (r + 2 ^ b) ≤ n then r + 2 ^ b else r)

/-- The greatest integer whose square is at most `n`. -/
def isqrt (n : Nat) : Nat := isqrtFrom n (n.log2 / 2 + 1) 0

/-! ### The operations (R9, R10) -/

/-- The NaN an operation produces: a NaN whose sign and payload are free (R10; log 5). -/
def nanOf (op : FloatOp) (a b : F32) : F32 :=
  let p := (Config.nanPattern op a b).toNat
  ofSignMag (p / 2 ^ 31 % 2 = 1) (0x7F800001 + p % (2 ^ 23 - 1))

/-- The exact sum of two data neither of which is a NaN, rounded; `onNaN` for the sum of opposite infinities. -/
def addCore (onNaN a b : F32) : F32 :=
  if isInf a ∧ isInf b then (if signBit a = signBit b then a else onNaN)
  else if isInf a then a
  else if isInf b then b
  else if units a + units b = 0 then zeroOf (signBit a && signBit b)
  else roundUnits (units a + units b < 0) (units a + units b).natAbs 1

/-- `fneg`: bit 31 inverted, no rounding (R11). -/
def fneg (a : F32) : F32 := a ^^^ 0x80000000#32

/-- `fabs`: bit 31 cleared, no rounding (R11). -/
def fabs (a : F32) : F32 := a &&& 0x7FFFFFFF#32

/-- `fadd` (R9). -/
def fadd (a b : F32) : F32 :=
  if isNaN a ∨ isNaN b then nanOf .add a b else addCore (nanOf .add a b) a b

/-- `fsub` (R9). -/
def fsub (a b : F32) : F32 :=
  if isNaN a ∨ isNaN b then nanOf .sub a b else addCore (nanOf .sub a b) a (fneg b)

/-- `fmul` (R9). -/
def fmul (a b : F32) : F32 :=
  if isNaN a ∨ isNaN b then nanOf .mul a b
  else if isInf a ∨ isInf b then
    (if isZero a ∨ isZero b then nanOf .mul a b else infOf (signBit a != signBit b))
  else roundUnits (signBit a != signBit b) (magUnits a * magUnits b) (2 ^ 149)

/-- `fdiv` (R9): a non-zero divided by zero is an infinity, zero by zero and infinity by infinity are NaNs. -/
def fdiv (a b : F32) : F32 :=
  if isNaN a ∨ isNaN b then nanOf .div a b
  else if isInf a then (if isInf b then nanOf .div a b else infOf (signBit a != signBit b))
  else if isInf b then zeroOf (signBit a != signBit b)
  else if isZero b then (if isZero a then nanOf .div a b else infOf (signBit a != signBit b))
  else roundUnits (signBit a != signBit b) (magUnits a * 2 ^ 149) (magUnits b)

/-- `fsqrt` (R9). The root of `u` units is the root of `u·2^149` in units; it is rounded from its integer part and
whether a fraction follows, since no rounding boundary lies strictly between. -/
def fsqrt (a : F32) : F32 :=
  if isNaN a then nanOf .sqrt a a
  else if isZero a then a
  else if signBit a then nanOf .sqrt a a
  else if isInf a then a
  else
    let n := magUnits a * 2 ^ 149
    let r := isqrt n
    roundUnits false (2 * r + (if r * r = n then 0 else 1)) 2

/-! ### Comparisons and conversions (R11, R12) -/

/-- The place of a datum that is not a NaN in the order of the reals; both zeros have place 0. -/
def orderOf (a : F32) : Int := if signBit a then -(magBits a : Int) else magBits a

/-- `flt`: IEEE `a < b`, false when either is a NaN (R11). -/
def flt (a b : F32) : Bool := !isNaN a && !isNaN b && decide (orderOf a < orderOf b)

/-- `fle`: IEEE `a ≤ b`, false when either is a NaN (R11). -/
def fle (a b : F32) : Bool := !isNaN a && !isNaN b && decide (orderOf a ≤ orderOf b)

/-- `i2f`: the datum equal to an integer of magnitude below 2^24 (R12); a larger one, which no rule converts, is
rounded. -/
def i2f (n : Int) : F32 := roundUnits (n < 0) (n.natAbs * 2 ^ 149) 1

/-- `f2i_floor` of a finite datum (R12); of a datum that is not finite, which no rule converts (42_psk.md R215), a
free value (log 10). -/
def f2iFloor (a : F32) : Int := if isFinite a then units a / 2 ^ 149 else Config.floorOfNonFinite a

/-! ### Constants (R14) -/

/-- +0.0. -/
def fZERO : F32 := 0x00000000#32
/-- 1.0. -/
def fONE : F32 := 0x3F800000#32
/-- −1.0. -/
def fMONE : F32 := 0xBF800000#32
/-- The datum nearest π. -/
def fPI : F32 := 0x40490FDB#32
/-- The datum nearest 2π. -/
def fTWOPI : F32 := 0x40C90FDB#32
/-- The datum nearest 0.005. -/
def fK005 : F32 := 0x3BA3D70A#32

/-! ### Clamping (R13) -/

/-- `clampF` (R13): a NaN passes through unchanged. -/
def clampF (a lo hi : F32) : F32 := if flt a lo then lo else if flt hi a then hi else a

/-- `sanitize` (R13): a NaN becomes +0.0, anything else is clamped to [−1, 1]. -/
def sanitize (a : F32) : F32 := if isNaN a then fZERO else clampF a fMONE fONE

/-! ### The open functions of the build, held to R15 and R16 (log 6, 7) -/

/-- A result that is finite with magnitude at most one; a build function that gave anything else would not be a legal
one, so which value replaces it is immaterial. -/
def heldToUnit (v : F32) : F32 := if fle (fabs v) fONE then v else fZERO

/-- A result that is a NaN; a build function that gave anything else would not be a legal one. -/
def heldToNaN (v : F32) : F32 := if isNaN v then v else 0x7F800001#32 + (v &&& 0x803FFFFF#32)

/-- `FCOS` (R15): the build's function where R15 leaves it open. -/
def fcos (a : F32) : F32 :=
  if isZero a then fONE else if isFinite a then heldToUnit (Config.fcosRaw a) else heldToNaN (Config.fcosRaw a)

/-- `FSIN` (R15): `FSIN(+0.0)` is +0.0 and `FSIN(−0.0)` is −0.0. -/
def fsin (a : F32) : F32 :=
  if isZero a then a else if isFinite a then heldToUnit (Config.fsinRaw a) else heldToNaN (Config.fsinRaw a)

/-- `LOCOS` (R16), with its four anchor values. -/
def locos (p : Word) : F32 :=
  if p = 0#32 then fONE
  else if p = 0x40000000#32 then fZERO
  else if p = 0x80000000#32 then fMONE
  else if p = 0xC0000000#32 then fZERO
  else heldToUnit (Config.locosRaw p)

/-- `LOSIN` (R16), with its four anchor values. -/
def losin (p : Word) : F32 :=
  if p = 0#32 then fZERO
  else if p = 0x40000000#32 then fONE
  else if p = 0x80000000#32 then fZERO
  else if p = 0xC0000000#32 then fMONE
  else heldToUnit (Config.losinRaw p)

/-! ### Complex helpers, in the order R17 fixes -/

/-- `cmul`: a times b. -/
def cmul (a b : C32) : C32 :=
  ⟨fsub (fmul a.i b.i) (fmul a.q b.q), fadd (fmul a.i b.q) (fmul a.q b.i)⟩

/-- `cderot`: x times (c − j s). -/
def cderot (x : C32) (c s : F32) : C32 :=
  ⟨fadd (fmul x.i c) (fmul x.q s), fsub (fmul x.q c) (fmul x.i s)⟩

/-- `lerp1`: from a at mu = 0 to b at mu = 1. -/
def lerp1 (a b mu : F32) : F32 := fadd a (fmul mu (fsub b a))

/-- `lerp` on samples. -/
def lerp (a b : C32) (mu : F32) : C32 := ⟨lerp1 a.i b.i mu, lerp1 a.q b.q mu⟩

/-- `mag`: the magnitude of a sample. -/
def mag (z : C32) : F32 := fsqrt (fadd (fmul z.i z.i) (fmul z.q z.q))

end Sys2Proof.Machine
end

