-- ==== Sys2Proof/Machine/Operands.lean ====
section
/-! DEFINITION. The exact integer arithmetic of the core (00_scope.md R6, R7, section 4), the legal ranges of operands
and the result formats of responses (30_encoding.md R101, R102). -/

namespace Sys2Proof.Machine

/-! ### Integer arithmetic on registers (00_scope.md R6, R7; log 13) -/

/-- `rdiv(a, b)`: `a / b` rounded to the nearest integer, ties toward +∞, for `b > 0` (00_scope.md section 4). -/
def rdiv (a b : Int) : Int := (2 * a + b) / (2 * b)

/-- The value an S64 register takes; every value a rule stores fits it (00_scope.md R6). -/
def s64 (v : Int) : BitVec 64 := BitVec.ofInt 64 v

/-- A U32 result from a count. -/
def u32 (n : Nat) : Word := BitVec.ofNat 32 n

/-- `BW div 2` (00_scope.md R7). -/
def halfOf (bw : Word) : Int := (bw.toNat / 2 : Nat)

/-- A U32 counter that stops at its maximum (00_scope.md R6; 10_state.md R58, R66). -/
def satInc (n : Word) : Word := if n.toNat + 1 < 2 ^ 32 then n + 1#32 else n

/-! ### Legal operands -/

/-- The greatest legal frequency operand, 2^62 − 1 (00_scope.md R6). -/
def freqLimit : Int := 2 ^ 62 - 1

/-- A legal frequency operand: `0 ≤ f ≤ 2^62 − 1` (00_scope.md R6; 43_fc.md R243; 44_alloc.md R280). -/
def legalFreq (f : BitVec 64) : Bool := 0 ≤ f.toInt ∧ f.toInt ≤ freqLimit

/-- A legal mixer frequency: `|f| ≤ 2^62 − 1` (40_mix.md R132). -/
def legalOffset (f : BitVec 64) : Bool := (f.toInt.natAbs : Int) ≤ freqLimit

/-- A gain of `PSK.CFG`: between +0.0 and 1.0, no NaN (42_psk.md R191). -/
def legalGain (v : F32) : Bool := fle fZERO v && fle v fONE

/-- The frequency bound of `PSK.CFG`: between +0.0 and π, no NaN (42_psk.md R191). -/
def legalFmax (v : F32) : Bool := fle fZERO v && fle v fPI

/-- The samples per symbol of `PSK.CFG`, with room for the early and late points (42_psk.md R191). -/
def legalSps (elOffset : Nat) (sps : BitVec 8) : Bool :=
  spsMin ≤ sps.toNat ∧ sps.toNat ≤ spsMax ∧ (elOffset : Int) ≤ (sps.toNat / 2 : Nat) - 1

/-! ### Result words -/

/-- A 64-bit result: two words, low first (30_encoding.md R101). -/
def words64 (v : BitVec 64) : List Word := [lo64 v, hi64 v]

/-- A complex result: in-phase first (30_encoding.md R101). -/
def wordsC32 (z : C32) : List Word := [z.i, z.q]

/-- A flag as a result word. -/
def wordOfBool (b : Bool) : Word := if b then 1#32 else 0#32

end Sys2Proof.Machine
end

