-- ==== Sys2Proof/Machine/Ops.lean ====
section
/-! DEFINITION. The operations all commands share: reaching a slot, the queue, emitting on ports, answering, and error
entry, which is the core's one exception (60_exceptions.md R340, R346). There is no return from it: "There is nothing
to return from" (R347). -/

namespace Sys2Proof.Machine

/-! ### Slots (10_state.md R40) -/

/-- `S[k]`. -/
def State.slot (s : State) (k : Nat) : Slot := s.slots.getD k .reset

/-- Write `S[k]`. -/
def State.setSlot (s : State) (k : Nat) (sl : Slot) : State := { s with slots := s.slots.set k sl }

/-- The slot holds a live source: IDLE or RUNNING (45_src.md R301). -/
def Slot.live (sl : Slot) : Bool := sl.src.state = .idle ∨ sl.src.state = .running

/-! ### The source queue (20_memory.md R83) -/

/-- `Enqueue`: append at the newest end. -/
def enqueue (q : List (List C32)) (b : List C32) : List (List C32) := q ++ [b]

/-- `Dequeue`: what stays when the oldest buffer is removed; the buffer itself is the head. -/
def dequeue (q : List (List C32)) : List (List C32) := q.tail

/-! ### Emitting (10_state.md R61): always succeeds, appends -/

/-- `Emit(DEV, item)` (R62). -/
def State.emitDev (s : State) (item : DevItem) : State :=
  { s with ports := { s.ports with dev := s.ports.dev ++ [item] } }

/-- `Emit(EVT[l], item)` for every listener `l` whose bit of the mask is 1 (R63; 43_fc.md R247). -/
def State.emitEvt (s : State) (item : FreqChange) : State :=
  { s with ports := { s.ports with
      evt := s.ports.evt.mapIdx fun l log => if s.fc.listenMask.getLsbD l then log ++ [item] else log } }

/-- `Emit(WARN, OVERFLOW(k))` for each slot of the list, in order (R63). -/
def State.emitWarn (s : State) (slots : List (BitVec 8)) : State :=
  { s with ports := { s.ports with warn := s.ports.warn ++ slots } }

/-- `Emit(OUT[k], item)` for each item, in order (R64). -/
def State.emitOut (s : State) (k : Nat) (items : List OutItem) : State :=
  { s with ports := { s.ports with out := s.ports.out.modify k (· ++ items) } }

/-- `Emit(TAP[k], item)` for each item, in order (R65). -/
def State.emitTap (s : State) (k : Nat) (items : List Snapshot) : State :=
  { s with ports := { s.ports with tap := s.ports.tap.modify k (· ++ items) } }

/-! ### Answering (30_encoding.md R102) -/

/-- Word 0 of a response: bits 7:0 STATUS, bits 15:8 NRES, bits 31:16 zero. -/
def responseHead (e : Status) (nres : Nat) : Word := 0#16 ++ BitVec.ofNat 8 nres ++ statusCode e

/-- Answer with a response record: word 0, then the result words. -/
def State.respond (s : State) (e : Status) (results : List Word) : State :=
  { s with resp := s.resp ++ [responseHead e results.length :: results] }

/-- The command succeeds with these results. -/
def succeed (results : List Word) (s : State) : Result := .next (s.respond .ok results)

/-! ### Error entry (60_exceptions.md R346) -/

/-- Record a failing command: its status code in `ERRSTAT`, its header word in `ERRINFO`, `ERRCNT` counted up to its
maximum; the response has the code and no results; nothing else changes. -/
def State.raise (s : State) (header : Word) (e : Status) : State :=
  { s with err := ⟨statusCode e, header, satInc s.err.cnt⟩ }.respond e []

/-- `raise E_x`: the command ends with that status. -/
def fail (header : Word) (e : Status) (s : State) : Result := .next (s.raise header e)

/-- The test that every command with a SLOT field makes first: `SLOT ≥ NSRC` raises `E_SLOT` (60_exceptions.md R341,
R344; 45_src.md R300). Otherwise the command goes on with the slot's registers. -/
def withSlot (header : Word) (k : BitVec 8) (s : State) (body : Slot → Result) : Result :=
  if s.cfg.nsrc ≤ k.toNat then fail header .slot s else body (s.slot k.toNat)

/-- The state test of the MIX, CIC and PSK data and configuration commands: a live source owns the unit, `E_STATE`
(40_mix.md R130; 41_cic.md R150; 42_psk.md R190; 45_src.md R301). -/
def withStandalone (header : Word) (k : BitVec 8) (s : State) (body : Slot → Result) : Result :=
  withSlot header k s fun sl => if sl.live then fail header .state s else body sl

/-! ### Work on one slot

The data-path commands run many samples through one slot; the slot and what it emits on the way are collected here
and stored at the end of the command, which is atomic (20_memory.md R86). -/

/-- A slot at work: its registers, what it has emitted on `OUT[s]` and `TAP[s]`, and the counts its commands
answer. -/
structure Work where
  sl : Slot
  out : List OutItem
  tap : List Snapshot
  nout : Nat
  nblk : Nat
  nsym : Nat
deriving DecidableEq, Repr

/-- A slot before its work. -/
def workOn (sl : Slot) : Work := ⟨sl, [], [], 0, 0, 0⟩

/-- Store a slot's work: its registers, and its items on its two ports. -/
def State.store (s : State) (k : Nat) (w : Work) : State :=
  ((s.setSlot k w.sl).emitOut k w.out).emitTap k w.tap

end Sys2Proof.Machine
end

