-- ==== Sys2Proof/Machine/Cic.lean ====
section
/-! DEFINITION. CIC, the prime-factor CIC decimator (41_cic.md). -/

namespace Sys2Proof.Machine

/-! ### Factoring the ratio (R151 to R153) -/

/-- The prime table of R151, entries 0 to 99. -/
def primesA : List Nat :=
  [2, 3, 5, 7, 11, 13, 17, 19, 23, 29, 31, 37, 41, 43, 47, 53, 59,
   61, 67, 71, 73, 79, 83, 89, 97, 101, 103, 107, 109, 113, 127, 131, 137, 139,
   149, 151, 157, 163, 167, 173, 179, 181, 191, 193, 197, 199, 211, 223, 227, 229, 233,
   239, 241, 251, 257, 263, 269, 271, 277, 281, 283, 293, 307, 311, 313, 317, 331, 337,
   347, 349, 353, 359, 367, 373, 379, 383, 389, 397, 401, 409, 419, 421, 431, 433, 439,
   443, 449, 457, 461, 463, 467, 479, 487, 491, 499, 503, 509, 521, 523, 541]

/-- The prime table of R151, entries 100 to 199. -/
def primesB : List Nat :=
  [547, 557, 563, 569, 571, 577, 587, 593, 599, 601, 607, 613, 617, 619, 631, 641, 643,
   647, 653, 659, 661, 673, 677, 683, 691, 701, 709, 719, 727, 733, 739, 743, 751, 757,
   761, 769, 773, 787, 797, 809, 811, 821, 823, 827, 829, 839, 853, 857, 859, 863, 877,
   881, 883, 887, 907, 911, 919, 929, 937, 941, 947, 953, 967, 971, 977, 983, 991, 997,
   1009, 1013, 1019, 1021, 1031, 1033, 1039, 1049, 1051, 1061, 1063, 1069, 1087, 1091, 1093, 1097, 1103,
   1109, 1117, 1123, 1129, 1151, 1153, 1163, 1171, 1181, 1187, 1193, 1201, 1213, 1217, 1223]

/-- The prime table of R151, entries 200 to 299. -/
def primesC : List Nat :=
  [1229, 1231, 1237, 1249, 1259, 1277, 1279, 1283, 1289, 1291, 1297, 1301, 1303, 1307, 1319, 1321, 1327,
   1361, 1367, 1373, 1381, 1399, 1409, 1423, 1427, 1429, 1433, 1439, 1447, 1451, 1453, 1459, 1471, 1481,
   1483, 1487, 1489, 1493, 1499, 1511, 1523, 1531, 1543, 1549, 1553, 1559, 1567, 1571, 1579, 1583, 1597,
   1601, 1607, 1609, 1613, 1619, 1621, 1627, 1637, 1657, 1663, 1667, 1669, 1693, 1697, 1699, 1709, 1721,
   1723, 1733, 1741, 1747, 1753, 1759, 1777, 1783, 1787, 1789, 1801, 1811, 1823, 1831, 1847, 1861, 1867,
   1871, 1873, 1877, 1879, 1889, 1901, 1907, 1913, 1931, 1933, 1949, 1951, 1973, 1979, 1987]

/-- The prime table of R151, entries 300 to 407. -/
def primesD : List Nat :=
  [1993, 1997, 1999, 2003, 2011, 2017, 2027, 2029, 2039, 2053, 2063, 2069, 2081, 2083, 2087, 2089, 2099,
   2111, 2113, 2129, 2131, 2137, 2141, 2143, 2153, 2161, 2179, 2203, 2207, 2213, 2221, 2237, 2239, 2243,
   2251, 2267, 2269, 2273, 2281, 2287, 2293, 2297, 2309, 2311, 2333, 2339, 2341, 2347, 2351, 2357, 2371,
   2377, 2381, 2383, 2389, 2393, 2399, 2411, 2417, 2423, 2437, 2441, 2447, 2459, 2467, 2473, 2477, 2503,
   2521, 2531, 2539, 2543, 2549, 2551, 2557, 2579, 2591, 2593, 2609, 2617, 2621, 2633, 2647, 2657, 2659,
   2663, 2671, 2677, 2683, 2687, 2689, 2693, 2699, 2707, 2711, 2713, 2719, 2729, 2731, 2741, 2749, 2753,
   2767, 2777, 2789, 2791, 2797, 2801]

/-- `PRIMES`, the ascending prime table up to `P_MAX` (R151). -/
def primeTable : List Nat := primesA ++ primesB ++ primesC ++ primesD

/-- `while r mod p = 0`: the factors `p` taken out of `r` and what is left (R153). The first argument bounds the
passes; each pass at least halves `r`. -/
def divideOut (p : Nat) : Nat → Nat → List Nat × Nat
  | 0, r => ([], r)
  | n + 1, r =>
    if r % p = 0 then
      let (fs, left) := divideOut p n (r / p)
      (p :: fs, left)
    else ([], r)

/-- Trial division over a table, ascending (R153). -/
def trialDivide : List Nat → Nat → List Nat × Nat
  | [], r => ([], r)
  | p :: ps, r =>
    let (fs, left) := divideOut p (r.log2 + 1) r
    let (gs, last) := trialDivide ps left
    (fs ++ gs, last)

/-- `Factor(R)`, or `none` for UNSUPPORTED (R153). -/
def factor (r : Nat) : Option (List Nat) :=
  let (fs, left) := trialDivide primeTable r
  if left = 1 then some fs else none

/-- The factors of a supported ratio, `none` for an unsupported one (R152). -/
def supported (r : Nat) : Option (List Nat) := if 1 ≤ r ∧ r ≤ rMax then factor r else none

/-! ### The Stage, its gain, the decimator (R158 to R162) -/

/-- `StageStep` for a factor of at least 3: one addition, one product, one subtraction a rail (R158). -/
def stageMoving (f : Nat) (st : Stage) (x : C32) : Stage × C32 :=
  let t : C32 := ⟨fadd st.sum.i x.i, fadd st.sum.q x.q⟩
  let y : C32 := ⟨fmul t.i st.gain, fmul t.q st.gain⟩
  let old := st.buf.getD st.idx C32.zero
  ({ st with
      sum := ⟨fsub t.i old.i, fsub t.q old.q⟩
      buf := st.buf.set st.idx x
      idx := (st.idx + 1) % (f - 1) }, y)

/-- `StageStep` for the factor 2: the two-tap average (R159). -/
def stageTwoTap (st : Stage) (x : C32) : Stage × C32 :=
  let prev := st.buf.getD 0 C32.zero
  let y : C32 := ⟨fmul (fadd prev.i x.i) st.gain, fmul (fadd prev.q x.q) st.gain⟩
  ({ st with buf := st.buf.set 0 x, sum := x, idx := 0 }, y)

/-- `StageStep` (R158, R159). -/
def stageStep (f : Nat) (st : Stage) (x : C32) : Stage × C32 :=
  if f = 2 then stageTwoTap st x else stageMoving f st x

/-- The Stage elements of a Decimating Stage, each fed by the one before (R162). -/
def stagesStep (f : Nat) : List Stage → C32 → List Stage × C32
  | [], x => ([], x)
  | st :: sts, x =>
    let (st', y) := stageStep f st x
    let (sts', z) := stagesStep f sts y
    (st' :: sts', z)

/-- `DecStageStep`: every Stage element runs, then the decimator keeps the `f`-th, `2f`-th, ... sample (R161, R162);
`none` is DROP. -/
def decStageStep (d : DecStage) (x : C32) : DecStage × Option C32 :=
  let f := d.fact.toNat
  let (sts, y) := stagesStep f d.st x
  if d.dcnt + 1 = f then ({ d with st := sts, dcnt := 0 }, some y)
  else ({ d with st := sts, dcnt := d.dcnt + 1 }, none)

/-- `g0`, the gain `1/f` (R160). -/
def gainOf (f : Nat) : F32 := fdiv fONE (i2f f)

/-- The gain of the last Stage element of a chain of order above 1 (R160). -/
def lastGainOf (f : Nat) : F32 := fmul (gainOf f) (fdiv fONE (fsub fONE (gainOf f)))

/-- The gains of the Stage elements of a Decimating Stage, in order (R160). -/
def gains (order f : Nat) : List F32 :=
  if order = 1 then [gainOf f] else List.replicate (order - 1) (gainOf f) ++ [lastGainOf f]

/-! ### Design, cache and construction (R163 to R167) -/

/-- Taps that `DESIGN` may return: `1 ≤ L ≤ TAPS_MAX`, all finite (R163). -/
def legalTaps (tapsMax : Nat) (taps : List F32) : Bool :=
  1 ≤ taps.length ∧ taps.length ≤ tapsMax ∧ taps.all isFinite

/-- `DESIGN`, `none` for FAIL: the build's function (log 8), held to R163: it fails when `pass ≥ stop` and when
`2·stop·R > rate`, and returns legal taps only. -/
def design (tapsMax : Nat) (rate : Word) (r : BitVec 16) (pass stop : Word) : Option (List F32) :=
  if stop.toNat ≤ pass.toNat ∨ rate.toNat < 2 * stop.toNat * r.toNat then none
  else (Config.designRaw rate r pass stop).filter (legalTaps tapsMax)

/-- `CacheFind`: the first entry of the same output rate, as an exact rational (R164). -/
def cacheFind (cache : List CacheEntry) (rate : Word) (r : BitVec 16) : Option CacheEntry :=
  cache.find? fun e => e.num.toNat * r.toNat = rate.toNat * e.den.toNat

/-- `CacheInsert`: append while there is room, otherwise do nothing (R164). -/
def cacheInsert (cap : Nat) (cache : List CacheEntry) (rate : Word) (r : BitVec 16) (taps : List F32) :
    List CacheEntry :=
  if cache.length < cap then cache ++ [⟨rate, r, taps⟩] else cache

/-- What construction has found: the factors, the taps, and whether the cache had them. -/
structure Plan where
  fs : List Nat
  taps : List F32
  hit : Bool
deriving DecidableEq, Repr

/-- `CicConstruct`, the checking half of construction (R165): it writes nothing. -/
def cicConstruct (s : State) (rate : Word) (r : BitVec 16) (pass stop : Word) : Except Status Plan :=
  match supported r.toNat with
  | none => .error .ratio
  | some fs =>
    match cacheFind s.cache rate r with
    | some e => .ok ⟨fs, e.taps, true⟩
    | none =>
      match design s.cfg.tapsMax rate r pass stop with
      | none => .error .filter
      | some taps => .ok ⟨fs, taps, false⟩

/-- The cache after a construction: a miss is inserted (R166; 44_alloc.md R283). -/
def cacheAfter (s : State) (rate : Word) (r : BitVec 16) (p : Plan) : List CacheEntry :=
  if p.hit then s.cache else cacheInsert s.cfg.cacheCap s.cache rate r p.taps

/-- A Stage element right after construction (10_state.md R48). -/
def freshStage (f : Nat) (gain : F32) : Stage :=
  { buf := List.replicate (f - 1) C32.zero, idx := 0, sum := C32.zero, gain := gain }

/-- A Decimating Stage right after construction (10_state.md R48). -/
def freshDecStage (order f : Nat) : DecStage :=
  { fact := BitVec.ofNat 16 f, st := (gains order f).map (freshStage f), dcnt := 0 }

/-- `CicInit`, the writing half of construction (R167). -/
def cicInit (c : Config) (rate : Word) (r : BitVec 16) (pass stop : Word) (fs : List Nat) (taps : List F32) : Cic where
  cfgd := true
  inRate := rate
  r := r
  pass := pass
  stop := stop
  ds := fs.map (freshDecStage c.cicOrder)
  taps := taps
  x := List.replicate taps.length C32.zero
  blk := List.replicate c.outBlock C32.zero
  blkn := 0

/-! ### The output stage (R168, R169) -/

/-- The filter's sum, from +0.0 in ascending tap index, product and sum rounded separately (R168). -/
def firSum (taps : List F32) (xs : List C32) : C32 :=
  (taps.zip xs).foldl (fun acc p => ⟨fadd acc.i (fmul p.1 p.2.i), fadd acc.q (fmul p.1 p.2.q)⟩) C32.zero

/-- A delay line after one more sample: newest first, the oldest falls out (R168; 42_psk.md R198). -/
def shiftIn (y : C32) (line : List C32) : List C32 := (y :: line).take line.length

/-- `FirStep` (R168). -/
def firStep (c : Cic) (y : C32) : Cic × C32 :=
  let x := shiftIn y c.x
  ({ c with x := x }, firSum c.taps x)

/-- `BlockPut` (R169): a full block is answered as a copy and stays in `BLK`. -/
def blockPut (outBlock : Nat) (c : Cic) (z : C32) : Cic × Option (List C32) :=
  let blk := c.blk.set c.blkn z
  if c.blkn + 1 = outBlock then ({ c with blk := blk, blkn := 0 }, some blk)
  else ({ c with blk := blk, blkn := c.blkn + 1 }, none)

/-! ### The whole decimator (R173) -/

/-- The chain of Decimating Stages: a dropped sample goes no further (R173). -/
def chainStep : List DecStage → C32 → List DecStage × Option C32
  | [], x => ([], some x)
  | d :: ds, x =>
    match decStageStep d x with
    | (d', none) => (d' :: ds, none)
    | (d', some y) =>
      let (ds', r) := chainStep ds y
      (d' :: ds', r)

/-- What one pushed sample gives: the decimator after it, whether the output stage produced a sample, and a block if
one was completed. -/
structure Pushed where
  cic : Cic
  nout : Nat
  blk : Option (List C32)
deriving DecidableEq, Repr

/-- `CicPush` (R173). -/
def cicRun (c : Config) (u : Cic) (x : C32) : Pushed :=
  match chainStep u.ds x with
  | (ds, none) => ⟨{ u with ds := ds }, 0, none⟩
  | (ds, some y) =>
    let (u', z) := firStep { u with ds := ds } y
    let (u'', b) := blockPut c.outBlock u' z
    ⟨u'', 1, b⟩

/-! ### Commands -/

/-- One sample of `CIC.PUSH` or `CIC.PUSHBLK` (R174): a completed block goes to `OUT[s]` when a consumer is attached,
whether or not the PSK unit is configured. -/
def pushOne (c : Config) (w : Work) (x : C32) : Work :=
  let p := cicRun c w.sl.cic x
  let w' := { w with sl := { w.sl with cic := p.cic }, nout := w.nout + p.nout }
  match p.blk with
  | none => w'
  | some b => { w' with nblk := w.nblk + 1, out := w.out ++ (if w.sl.src.consumer then [.block b] else []) }

/-- `CIC.CFG` (R166). -/
def execCicCfg (slot : BitVec 8) (r : BitVec 16) (rate pass stop : Word) (s : State) : Result :=
  withStandalone (Instr.cicCfg slot r rate pass stop).header slot s fun sl =>
    if rate = 0 then fail (Instr.cicCfg slot r rate pass stop).header .operand s
    else
      match cicConstruct s rate r pass stop with
      | .error e => fail (Instr.cicCfg slot r rate pass stop).header e s
      | .ok p =>
        succeed []
          ({ s with cache := cacheAfter s rate r p }.setSlot slot.toNat
            { sl with cic := cicInit s.cfg rate r pass stop p.fs p.taps })

/-- `CIC.PUSH` (R174). -/
def execCicPush (slot : BitVec 8) (x : C32) (s : State) : Result :=
  withStandalone (Instr.cicPush slot x).header slot s fun sl =>
    if sl.cic.cfgd = false then fail (Instr.cicPush slot x).header .notcfg s
    else
      let w := pushOne s.cfg (workOn sl) x
      succeed [u32 w.nout, u32 w.nblk] (s.store slot.toNat w)

/-- `CIC.PUSHBLK` (R175): the samples of the block pushed in order, as one command. -/
def execCicPushblk (slot : BitVec 8) (x : List C32) (s : State) : Result :=
  withStandalone (Instr.cicPushblk slot x).header slot s fun sl =>
    if sl.cic.cfgd = false then fail (Instr.cicPushblk slot x).header .notcfg s
    else
      let w := x.foldl (pushOne s.cfg) (workOn sl)
      succeed [u32 w.nout, u32 w.nblk] (s.store slot.toNat w)

/-- `FACT[k]` as a result word, 0 past the last Decimating Stage (R176). -/
def factWord (c : Cic) (k : Nat) : Word :=
  match c.ds[k]? with
  | some d => d.fact.setWidth 32
  | none => 0

/-- `CIC.GETCFG` (R176): in every slot state, changes nothing. -/
def execCicGetcfg (slot : BitVec 8) (k : BitVec 16) (s : State) : Result :=
  withSlot (Instr.cicGetcfg slot k).header slot s fun sl =>
    succeed
      [wordOfBool sl.cic.cfgd, u32 sl.cic.nds, factWord sl.cic k.toNat,
        if sl.cic.cfgd then u32 sl.cic.len else 0, u32 sl.cic.blkn] s

end Sys2Proof.Machine
end

