-- ==== Sys2Proof/Machine/Mix.lean ====
section
/-! DEFINITION. MIX, the oscillator and complex mixer (40_mix.md). -/

namespace Sys2Proof.Machine

/-- `MixInc(f, rate)`: the phase increment for `f` Hz at `rate` Hz (R133). -/
def mixInc (f : Int) (rate : Word) : Word := BitVec.ofInt 32 (rdiv (f * 2 ^ 32) rate.toNat)

/-- `LO(p)`, the local-oscillator sample at a phase (R131). -/
def localOsc (p : Word) : C32 := ⟨locos p, losin p⟩

/-- `OscNext`: the sample is taken before the phase advances modulo 2^32 (R131). -/
def oscNext (m : Mix) : Mix × C32 := ({ m with phase := m.phase + m.inc }, localOsc m.phase)

/-- `MixStep`: the input times the oscillator sample (R135). -/
def mixRun (m : Mix) (x : C32) : Mix × C32 := ((oscNext m).1, cmul x (oscNext m).2)

/-- `MIX.SETFREQ` (R132): the phase is kept. -/
def execMixSetfreq (slot : BitVec 8) (f : BitVec 64) (rate : Word) (s : State) : Result :=
  withStandalone (Instr.mixSetfreq slot f rate).header slot s fun sl =>
    if rate = 0 ∨ legalOffset f = false then fail (Instr.mixSetfreq slot f rate).header .operand s
    else
      succeed []
        (s.setSlot slot.toNat { sl with mix := { sl.mix with inc := mixInc f.toInt rate, cfgd := true } })

/-- `MIX.NEXT` (R134). -/
def execMixNext (slot : BitVec 8) (s : State) : Result :=
  withStandalone (Instr.mixNext slot).header slot s fun sl =>
    if sl.mix.cfgd = false then fail (Instr.mixNext slot).header .notcfg s
    else
      let (mix, lo) := oscNext sl.mix
      succeed (wordsC32 lo) (s.setSlot slot.toNat { sl with mix := mix })

/-- `MIX.STEP` (R135): no error from any sample value. -/
def execMixStep (slot : BitVec 8) (x : C32) (s : State) : Result :=
  withStandalone (Instr.mixStep slot x).header slot s fun sl =>
    if sl.mix.cfgd = false then fail (Instr.mixStep slot x).header .notcfg s
    else
      let (mix, y) := mixRun sl.mix x
      succeed (wordsC32 y) (s.setSlot slot.toNat { sl with mix := mix })

/-- `MIX.GETSTATE` (R136): in every slot state, changes nothing. -/
def execMixGetstate (slot : BitVec 8) (s : State) : Result :=
  withSlot (Instr.mixGetstate slot).header slot s fun sl =>
    succeed [sl.mix.phase, sl.mix.inc, wordOfBool sl.mix.cfgd] s

end Sys2Proof.Machine
end

