-- ==== Sys2Proof/Machine/Fc.lean ====
section
/-! DEFINITION. FC, the frequency controller (43_fc.md). -/

namespace Sys2Proof.Machine

/-! ### The correction and the privileged setter (R242, R247, R248) -/

/-- `S` of R242: the ppm register's units in one whole, `1000000 · PPM_SCALE`. -/
def ppmWhole (c : Config) : Int := 1000000 * c.ppmScale

/-- `resolve(f, ppm)`: the tuned frequency, nearest, ties toward +∞ (R242). -/
def resolve (c : Config) (f ppm : Int) : Int := rdiv (f * ppmWhole c) (ppmWhole c + ppm)

/-- `FreqCheck(f, ppm)`, the checking half of the locked setter: the range test is on the tuned value (R248). -/
def freqCheck (s : State) (f ppm : Int) : Except Status Int :=
  if resolve s.cfg f ppm < s.fc.min.toInt ∨ s.fc.max.toInt < resolve s.cfg f ppm then .error .range
  else .ok (resolve s.cfg f ppm)

/-- A live source's mixer re-programmed for the tuner frequency (R247; 45_src.md R302); the phase is kept. -/
def reprogram (fc : Fc) (sl : Slot) : Slot :=
  if sl.live then
    { sl with mix := { sl.mix with inc := mixInc (fc.freq.toInt - sl.src.chFreq.toInt - sl.src.corr.toInt) fc.rate } }
  else sl

/-- `Deliver()`: every registered listener gets the item, every live source is re-programmed (R247). -/
def State.deliver (s : State) : State :=
  { s.emitEvt ⟨s.fc.freq, s.fc.tuned⟩ with slots := s.slots.map (reprogram s.fc) }

/-- `FreqCommit(f, t)`, the writing half of the locked setter (R248). -/
def State.freqCommit (s : State) (f t : Int) : State :=
  ({ s with fc := { s.fc with freq := s64 f, tuned := s64 t, freqValid := true } }.emitDev (.setFreq (s64 t))).deliver

/-! ### Commands -/

/-- `FC.GETFREQ` (R241). -/
def execFcGetfreq (s : State) : Result := succeed (words64 s.fc.freq) s

/-- `FC.SETFREQ` (R243): the lock test stands first. -/
def execFcSetfreq (f : BitVec 64) (s : State) : Result :=
  if s.fc.locked then fail (Instr.fcSetfreq f).header .locked s
  else if legalFreq f = false then fail (Instr.fcSetfreq f).header .operand s
  else
    match freqCheck s f.toInt s.fc.ppm.toInt with
    | .error e => fail (Instr.fcSetfreq f).header e s
    | .ok t => succeed [] (s.freqCommit f.toInt t)

/-- `FC.GETRATE` (R244). -/
def execFcGetrate (s : State) : Result := succeed [s.fc.rate] s

/-- `FC.SETRATE` (R245): no broadcast. -/
def execFcSetrate (rate : Word) (s : State) : Result :=
  if s.fc.locked then fail (Instr.fcSetrate rate).header .locked s
  else if rate = 0 then fail (Instr.fcSetrate rate).header .operand s
  else succeed [] ({ s with fc := { s.fc with rate := rate } }.emitDev (.setRate rate))

/-- `FC.SETPPM` (R246): accepted in both modes; a correction that would carry the tuned value out of bounds fails as a
whole. -/
def execFcSetppm (ppm : Word) (s : State) : Result :=
  if ppmWhole s.cfg + ppm.toInt ≤ 0 then fail (Instr.fcSetppm ppm).header .operand s
  else if s.fc.freqValid then
    match freqCheck s s.fc.freq.toInt ppm.toInt with
    | .error e => fail (Instr.fcSetppm ppm).header e s
    | .ok t => succeed [] ({ s with fc := { s.fc with ppm := ppm } }.freqCommit s.fc.freq.toInt t)
  else succeed [] { s with fc := { s.fc with ppm := ppm } }

/-- `FC.SETBOUNDS` (R249). -/
def execFcSetbounds (min max : BitVec 64) (s : State) : Result :=
  if s.fc.locked then fail (Instr.fcSetbounds min max).header .locked s
  else if min.toInt < 0 ∨ freqLimit < max.toInt ∨ max.toInt < min.toInt then
    fail (Instr.fcSetbounds min max).header .operand s
  else if s.fc.freqValid ∧ (s.fc.tuned.toInt < min.toInt ∨ max.toInt < s.fc.tuned.toInt) then
    fail (Instr.fcSetbounds min max).header .range s
  else succeed [] { s with fc := { s.fc with min := min, max := max } }

/-- `FC.SETBLACKOUT` (R250): every value is legal. -/
def execFcSetblackout (bw : Word) (s : State) : Result :=
  if s.fc.locked then fail (Instr.fcSetblackout bw).header .locked s
  else succeed [] { s with fc := { s.fc with blackout := bw } }

/-- `FC.SETUSABLE` (R251). -/
def execFcSetusable (num den : Word) (s : State) : Result :=
  if s.fc.locked then fail (Instr.fcSetusable num den).header .locked s
  else if den = 0 ∨ den.toNat < num.toNat then fail (Instr.fcSetusable num den).header .operand s
  else succeed [] { s with fc := { s.fc with ufNum := num, ufDen := den } }

/-- `FC.GETSTATE` (R252). -/
def execFcGetstate (s : State) : Result :=
  succeed
    ([fcFlags s.fc] ++ words64 s.fc.tuned ++ [s.fc.ppm] ++ words64 s.fc.min ++ words64 s.fc.max ++
      [s.fc.blackout, s.fc.ufNum, s.fc.ufDen, s.fc.listenMask.setWidth 32]) s

/-- `FC.LISTEN` (R253): accepted in both modes. -/
def execFcListen (mask : BitVec 16) (s : State) : Result :=
  if 2 ^ s.cfg.nlisten ≤ mask.toNat then fail (Instr.fcListen mask).header .operand s
  else succeed [] { s with fc := { s.fc with listenMask := mask } }

end Sys2Proof.Machine
end

