-- ==== Sys2Proof/Machine/Alloc.lean ====
section
/-! DEFINITION. ALLOC, the channel manager and frequency allocator (44_alloc.md). -/

namespace Sys2Proof.Machine

/-! ### Geometry (R270 to R272) -/

/-- `ch.min` (R270; 10_state.md R35). -/
def Channel.low (ch : Channel) : Int := ch.freq.toInt - halfOf ch.bw

/-- `ch.max` (R270; 10_state.md R35). -/
def Channel.high (ch : Channel) : Int := ch.freq.toInt + halfOf ch.bw

/-- `USABLE`, the usable bandwidth in Hz (10_state.md R33). -/
def Fc.usable (fc : Fc) : Nat := fc.rate.toNat * fc.ufNum.toNat / fc.ufDen.toNat

/-- `HALFWIN` (10_state.md R33). -/
def Fc.halfwin (fc : Fc) : Int := (fc.usable / 2 : Nat)

/-- `Window(S, c)`: every channel within `half` of the center, ends included (R271). -/
def inWindow (half : Int) (chs : List Channel) (c : Int) : Bool :=
  chs.all fun ch => c - half ≤ ch.low ∧ ch.high ≤ c + half

/-- `Overlap(ch, c)`: the channel and the closed blackout zone have a common point (R272). -/
def overlaps (bo : Int) (ch : Channel) (c : Int) : Bool := ch.low ≤ c + bo ∧ c - bo ≤ ch.high

/-! ### Placement (R275) -/

/-- The scan of `Place` for several channels: shift past the first overlapping channel and start again, at most as
often as the bound says (R275, R277). `floor` is the lowest channel's `min`. -/
def placeScan (half bo floor : Int) (chs : List Channel) : Nat → Int → Option Int
  | left, c =>
    match chs.find? fun ch => overlaps bo ch c with
    | none => some c
    | some ch =>
      match left with
      | 0 => none
      | left + 1 =>
        if floor < ch.high + bo + 1 - half then none else placeScan half bo floor chs left (ch.high + bo + 1)

/-- `Place(S)`, `none` for INFEASIBLE (R275); one channel is not tested against the blackout zone (R276). -/
def place (half bo : Int) (chs : List Channel) : Option Int :=
  match chs with
  | [] => none
  | [ch] => if inWindow half [ch] (ch.low - bo + 1) then some (ch.low - bo + 1) else none
  | ch :: rest =>
    let start := (rest.getLastD ch).high - half
    if ch.low < start - half then none
    else
      match placeScan half bo ch.low chs chs.length start with
      | none => none
      | some c => if inWindow half chs c then some c else none

/-! ### The active set (10_state.md R35) -/

/-- A channel inserted at its place in ascending `FREQ` (R280 step 5). -/
def insertChannel (ch : Channel) : List Channel → List Channel
  | [] => [ch]
  | c :: cs => if ch.freq.toInt < c.freq.toInt then ch :: c :: cs else c :: insertChannel ch cs

/-- The smallest-numbered slot in state FREE or STOPPED (R280 step 4, R285). -/
def freeSlot (s : State) : Option Nat := (List.range s.cfg.nsrc).find? fun k => !(s.slot k).live

/-- The registers of a new source (R284): everything at its reset value, then the source's own. -/
def freshSource (s : State) (freq : BitVec 64) (bw : Word) (center : Int) (r : BitVec 16) (pass stop : Word)
    (p : Plan) : Slot where
  src := { Src.reset with state := .idle, chFreq := freq, chBw := bw }
  mix := { phase := 0, inc := mixInc (center - freq.toInt) s.fc.rate, cfgd := true }
  cic := cicInit s.cfg s.fc.rate r pass stop p.fs p.taps
  psk := Psk.reset

/-! ### Allocation (R280 to R285) -/

/-- What the checks of `ALLOC.GETSOURCE` have decided (R280): the slot, the proposed set, the center, the tuned value
when there is a retune, the decimator. -/
structure Grant where
  slot : Nat
  proposed : List Channel
  center : Int
  tuned : Option Int
  plan : Plan
deriving DecidableEq, Repr

/-- Step 7 of R280: no retune when a valid frequency is the center already. -/
def retuneCheck (s : State) (center : Int) : Except Status (Option Int) :=
  if s.fc.freqValid = false ∨ center ≠ s.fc.freq.toInt then
    match freqCheck s center s.fc.ppm.toInt with
    | .error e => .error e
    | .ok t => .ok (some t)
  else .ok none

/-- Steps 1 to 8 of R280, which read state and write none (R281). -/
def allocate (s : State) (r : BitVec 16) (freq : BitVec 64) (bw pass stop : Word) : Except Status Grant :=
  if s.fc.rate = 0 then .error .notcfg
  else if legalFreq freq = false then .error .operand
  else if s.active.any (fun c => c.freq = freq) then .error .duplicate
  else
    match freeSlot s with
    | none => .error .full
    | some k =>
      let proposed := insertChannel ⟨freq, bw, BitVec.ofNat 8 k⟩ s.active
      match place s.fc.halfwin s.fc.blackout.toNat proposed with
      | none => .error .infeasible
      | some c =>
        match retuneCheck s c with
        | .error e => .error e
        | .ok tuned =>
          match cicConstruct s s.fc.rate r pass stop with
          | .error e => .error e
          | .ok plan => .ok ⟨k, proposed, c, tuned, plan⟩

/-- The commit of `ALLOC.GETSOURCE` (R283). -/
def State.grant (s : State) (r : BitVec 16) (freq : BitVec 64) (bw pass stop : Word) (g : Grant) : State :=
  let s' := { s with
    active := g.proposed
    fc := { s.fc with locked := true }
    cache := cacheAfter s s.fc.rate r g.plan }.setSlot g.slot (freshSource s freq bw g.center r pass stop g.plan)
  match g.tuned with
  | none => s'
  | some t => s'.freqCommit g.center t

/-! ### Release (R287) -/

/-- `Release(k)` (R287): no retune, nothing emitted; the controller unlocks when the set is empty. -/
def State.release (s : State) (k : Nat) : State :=
  let active := s.active.filter fun c => c.slot.toNat ≠ k
  let sl := s.slot k
  { s with
    active := active
    fc := { s.fc with locked := if active.isEmpty then false else s.fc.locked } }.setSlot k
      { sl with src := { sl.src with state := .stopped, q := [] } }

/-! ### Commands -/

/-- `ALLOC.GETSOURCE` (R280): its result is the slot. -/
def execAllocGetsource (r : BitVec 16) (freq : BitVec 64) (bw pass stop : Word) (s : State) : Result :=
  match allocate s r freq bw pass stop with
  | .error e => fail (Instr.allocGetsource r freq bw pass stop).header e s
  | .ok g => succeed [u32 g.slot] (s.grant r freq bw pass stop g)

/-- `ALLOC.RELEASE` (R287): a frequency that is no entry's key is a successful no-op. -/
def execAllocRelease (freq : BitVec 64) (s : State) : Result :=
  match s.active.find? fun c => c.freq = freq with
  | none => succeed [0#32] s
  | some e => succeed [1#32] (s.release e.slot.toNat)

/-- `ALLOC.QUERY` (R289). -/
def execAllocQuery (index : BitVec 16) (s : State) : Result :=
  succeed
    (u32 s.active.length ::
      (match s.active[index.toNat]? with
        | some c => words64 c.freq ++ [c.bw, c.slot.setWidth 32]
        | none => [0#32, 0#32, 0#32, 0#32])) s

end Sys2Proof.Machine
end

