-- ==== Sys2Proof/Machine/Psk.lean ====
section
/-! DEFINITION. PSK, the Costas loop, the timing-error detectors and the symbol clock (42_psk.md). -/

namespace Sys2Proof.Machine

/-! ### The per-sample part (R195 to R199) -/

/-- `wrap`: one correction of the phase into [−π, π] (R195). -/
def wrapPhase (p : F32) : F32 :=
  if flt fPI p then fsub p fTWOPI else if flt p (fneg fPI) then fadd p fTWOPI else p

/-- The carrier step, the delay-line step and the period counter (R196, R198, R199): the phase is advanced first and
the advanced phase derotates this sample. -/
def pskAdvance (u : Psk) (x : C32) : Psk :=
  let lphase := wrapPhase (fadd u.lphase u.lfreq)
  let y := cderot x (fcos lphase) (fsin lphase)
  { u with lphase := lphase, dl := shiftIn y u.dl, skip := u.skip - 1#16 }

/-! ### The symbol event (R200 to R215) -/

/-- `DL[n]`. -/
def dlAt (u : Psk) (n : Nat) : C32 := u.dl.getD n C32.zero

/-- Linear interpolation between `DL[n]` and the newer `DL[n − 1]`, `MU` of a sample on (R200). -/
def interpolate (u : Psk) (n : Nat) : C32 := lerp (dlAt u n) (dlAt u (n - 1)) u.mu

/-- `HALF`, which is also `B` (R200). -/
def halfSps (u : Psk) : Nat := u.sps.toNat / 2

/-- `currentSymbol` (R200). -/
def curSymbol (u : Psk) : C32 := interpolate u (halfSps u)

/-- `middleSymbol`, half a symbol earlier (R200). -/
def midSymbol (u : Psk) : C32 := interpolate u (halfSps u + halfSps u)

/-- `earlySample`, `E` samples earlier (R200). -/
def earlySample (elOffset : Nat) (u : Psk) : C32 := interpolate u (halfSps u + elOffset)

/-- `lateSample`, `E` samples later (R200). -/
def lateSample (elOffset : Nat) (u : Psk) : C32 := interpolate u (halfSps u - elOffset)

/-- The phase error before sanitising (R202). -/
def phaseError (cur : C32) : F32 :=
  if flt (fabs cur.q) (fabs cur.i) then (if flt fZERO cur.i then cur.q else fneg cur.q)
  else (if flt fZERO cur.q then fneg cur.i else cur.i)

/-- The Gardner timing error before sanitising (R207). -/
def gardnerError (prev cur mid : C32) : F32 :=
  fadd (fmul (fsub prev.i cur.i) mid.i) (fmul (fsub prev.q cur.q) mid.q)

/-- The early-late timing error before sanitising (R208). -/
def earlyLateError (early late : C32) : F32 := fsub (mag late) (mag early)

/-- The detector that `TED` selects (R207, R208), sanitised (R205). -/
def timingError (elOffset : Nat) (u : Psk) : F32 :=
  sanitize (if u.ted then earlyLateError (earlySample elOffset u) (lateSample elOffset u)
    else gardnerError u.prev (curSymbol u) (midSymbol u))

/-- The Costas update: the frequency first, clamped, then the phase with the new frequency (R203). -/
def costasUpdate (pe : F32) (u : Psk) : Psk :=
  let lfreq := clampF (fadd u.lfreq (fmul u.beta pe)) (fneg u.fmax) u.fmax
  { u with lfreq := lfreq, lphase := wrapPhase (fadd u.lphase (fadd lfreq (fmul u.alpha pe))) }

/-- The omega update (R210), then the mu update and the next sampling instant, with the new omega (R215). -/
def clockUpdate (te : F32) (cur : C32) (u : Psk) : Psk :=
  let omega := clampF (fadd u.omega (fmul u.gainOmega te)) u.omegaMin u.omegaMax
  let t := fadd (fadd u.mu omega) (fmul u.gainMu te)
  let n := f2iFloor t
  { u with omega := omega, skip := BitVec.ofInt 16 (max 1 n), mu := fsub t (i2f n), prev := cur }

/-- What a symbol event gives: the symbol and the snapshot of the tap (R216). -/
structure SymbolEvent where
  z : C32
  snap : Snapshot
deriving DecidableEq, Repr

/-- The symbol event on the registers as R199 leaves them (R217): R200, R202, R203, R207 or R208, R210, R215, R216. -/
def symbolEvent (elOffset : Nat) (u : Psk) : Psk × SymbolEvent :=
  let cur := curSymbol u
  let pe := sanitize (phaseError cur)
  let te := timingError elOffset u
  (clockUpdate te cur (costasUpdate pe u), ⟨cur, ⟨u.dl, te, pe⟩⟩)

/-- `PskStep` without its emissions (R217): a symbol event when the new `SKIP` is 0. -/
def pskRun (elOffset : Nat) (u : Psk) (x : C32) : Psk × Option SymbolEvent :=
  let v := pskAdvance u x
  if v.skip = 0 then
    let (w, e) := symbolEvent elOffset v
    (w, some e)
  else (v, none)

/-- `PskStep` (R217) with the emissions of R216: a symbol for a consumer, then a snapshot for a tap. -/
def pskOne (c : Config) (w : Work) (x : C32) : Work :=
  match pskRun c.elOffset w.sl.psk x with
  | (u, none) => { w with sl := { w.sl with psk := u } }
  | (u, some e) =>
    { w with
      sl := { w.sl with psk := u }
      nsym := w.nsym + 1
      out := w.out ++ (if w.sl.src.consumer then [.symbol e.z] else [])
      tap := w.tap ++ (if w.sl.src.tapen then [e.snap] else []) }

/-! ### Configuration (R191, R192) -/

/-- `LIM`, half a percent of the nominal samples per symbol (R192). -/
def omegaLimit (sps : BitVec 8) : F32 := fmul (i2f sps.toNat) fK005

/-- The registers after `PSK.CFG` (R191, R192). -/
def pskInit (sps : BitVec 8) (ted : Bool) (alpha beta fmax gainmu gainomega : F32) : Psk where
  cfgd := true
  alpha := alpha
  beta := beta
  fmax := fmax
  lphase := fZERO
  lfreq := fZERO
  sps := sps
  ted := ted
  gainMu := gainmu
  gainOmega := gainomega
  mu := fZERO
  omega := i2f sps.toNat
  omegaMin := fsub (i2f sps.toNat) (omegaLimit sps)
  omegaMax := fadd (i2f sps.toNat) (omegaLimit sps)
  skip := BitVec.ofNat 16 (2 * sps.toNat)
  prev := C32.zero
  dl := List.replicate (2 * sps.toNat) C32.zero

/-! ### Commands -/

/-- `PSK.CFG` (R190, R191): allowed in every slot state but RUNNING. -/
def execPskCfg (slot sps : BitVec 8) (ted : Bool) (alpha beta fmax gainmu gainomega : F32) (s : State) : Result :=
  withSlot (Instr.pskCfg slot sps ted alpha beta fmax gainmu gainomega).header slot s fun sl =>
    if sl.src.state = .running then
      fail (Instr.pskCfg slot sps ted alpha beta fmax gainmu gainomega).header .state s
    else if legalSps s.cfg.elOffset sps && legalGain alpha && legalGain beta && legalFmax fmax && legalGain gainmu &&
        legalGain gainomega then
      succeed [] (s.setSlot slot.toNat { sl with psk := pskInit sps ted alpha beta fmax gainmu gainomega })
    else fail (Instr.pskCfg slot sps ted alpha beta fmax gainmu gainomega).header .operand s

/-- The results of `PSK.STEP`: whether a symbol came, and the symbol or (+0.0, +0.0) (R219). -/
def stepResults (e : Option SymbolEvent) : List Word :=
  match e with
  | some e => 1#32 :: wordsC32 e.z
  | none => 0#32 :: wordsC32 C32.zero

/-- `PSK.STEP` (R219). -/
def execPskStep (slot : BitVec 8) (x : C32) (s : State) : Result :=
  withStandalone (Instr.pskStep slot x).header slot s fun sl =>
    if sl.psk.cfgd = false then fail (Instr.pskStep slot x).header .notcfg s
    else
      succeed (stepResults (pskRun s.cfg.elOffset sl.psk x).2) (s.store slot.toNat (pskOne s.cfg (workOn sl) x))

/-- `PSK.STEPBLK` (R220): the samples in order, as one command. -/
def execPskStepblk (slot : BitVec 8) (x : List C32) (s : State) : Result :=
  withStandalone (Instr.pskStepblk slot x).header slot s fun sl =>
    if sl.psk.cfgd = false then fail (Instr.pskStepblk slot x).header .notcfg s
    else
      let w := x.foldl (pskOne s.cfg) (workOn sl)
      succeed [u32 w.nsym] (s.store slot.toNat w)

/-- `PSK.GETSTATE` (R221): in every slot state, changes nothing. -/
def execPskGetstate (slot : BitVec 8) (s : State) : Result :=
  withSlot (Instr.pskGetstate slot).header slot s fun sl =>
    succeed
      ([sl.psk.lphase, sl.psk.lfreq, sl.psk.mu, sl.psk.omega, sl.psk.skip.setWidth 32] ++ wordsC32 sl.psk.prev) s

end Sys2Proof.Machine
end

