-- ==== Sys2Proof/Machine/Src.lean ====
section
/-! DEFINITION. SRC, the tuner channel source (45_src.md). -/

namespace Sys2Proof.Machine

/-- The state test of the SRC commands that act on a source: a STOPPED slot answers `E_STOPPED`, a state the command
does not apply to `E_STATE` (R300; 60_exceptions.md R344). -/
def withSource (header : Word) (k : BitVec 8) (s : State) (applies : SrcState → Bool) (body : Slot → Result) : Result :=
  withSlot header k s fun sl =>
    if sl.src.state = .stopped then fail header .stopped s
    else if applies sl.src.state then body sl
    else fail header .state s

/-! ### Lifecycle (R304, R305) -/

/-- `SRC.START` (R304). -/
def execSrcStart (slot : BitVec 8) (s : State) : Result :=
  withSource (Instr.srcStart slot).header slot s (fun st => st = .idle) fun sl =>
    succeed [] (s.setSlot slot.toNat { sl with src := { sl.src with state := .running } })

/-- `SRC.STOP` (R305): `Release` of 44_alloc.md R287. -/
def execSrcStop (slot : BitVec 8) (s : State) : Result :=
  withSource (Instr.srcStop slot).header slot s (fun st => st = .idle ∨ st = .running) fun _ =>
    succeed [] (s.release slot.toNat)

/-! ### Feed (R307) -/

/-- One slot's part of a feed: drop the oldest buffer of a full queue, then enqueue (R307). -/
def feedSlot (qcap : Nat) (x : List C32) (sl : Slot) : Slot :=
  if sl.src.state = .running then
    if sl.src.q.length = qcap then
      { sl with src := { sl.src with
          q := enqueue (dequeue sl.src.q) x, ovfCount := satInc sl.src.ovfCount, ovf := true } }
    else { sl with src := { sl.src with q := enqueue sl.src.q x } }
  else sl

/-- The slot loses a buffer to this feed (R307). -/
def feedDrops (qcap : Nat) (sl : Slot) : Bool := sl.src.state = .running ∧ sl.src.q.length = qcap

/-- The slot's overflow flag goes from 0 to 1, which emits a warning (R307; 10_state.md R58). -/
def feedWarns (qcap : Nat) (sl : Slot) : Bool := feedDrops qcap sl && !sl.src.ovf

/-- The slots that warn, ascending (R307; 60_exceptions.md R352). -/
def feedWarnings (qcap : Nat) (slots : List Slot) : List (BitVec 8) :=
  ((List.range slots.length).filter fun k => feedWarns qcap (slots.getD k .reset)).map (BitVec.ofNat 8)

/-- `SRC.FEED` (R307): the buffer is copied into the queue of every RUNNING slot. -/
def execSrcFeed (x : List C32) (s : State) : Result :=
  if x.length = 0 ∨ s.cfg.bufMax < x.length then fail (Instr.srcFeed x).header .operand s
  else
    succeed
      [u32 (s.slots.countP fun sl => sl.src.state = .running), u32 (s.slots.countP (feedDrops s.cfg.qcap))]
      ({ s with slots := s.slots.map (feedSlot s.cfg.qcap x) }.emitWarn (feedWarnings s.cfg.qcap s.slots))

/-! ### Drain (R309, R310) -/

/-- `Route`: a PSK channel's block goes through the loop, another channel's to its consumer (R310). -/
def route (c : Config) (w : Work) (blk : List C32) : Work :=
  if w.sl.psk.cfgd then blk.foldl (pskOne c) w
  else { w with out := w.out ++ (if w.sl.src.consumer then [.block blk] else []) }

/-- One sample of a drained buffer: mixer, decimator, then `Route` of a completed block (R309). -/
def drainOne (c : Config) (w : Work) (x : C32) : Work :=
  let m := mixRun w.sl.mix x
  let p := cicRun c w.sl.cic m.2
  let w' := { w with sl := { w.sl with mix := m.1, cic := p.cic } }
  match p.blk with
  | none => w'
  | some b => route c { w' with nblk := w.nblk + 1 } b

/-- One buffer dequeued and processed (R309). -/
def drainBuffer (c : Config) (w : Work) (b : List C32) : Work :=
  b.foldl (drainOne c) { w with sl := { w.sl with src := { w.sl.src with q := dequeue w.sl.src.q } } }

/-- The oldest buffers, as many as one drain takes (R309). -/
def drained (c : Config) (sl : Slot) : List (List C32) := sl.src.q.take c.drainCap

/-- `SRC.DRAIN` (R309). -/
def execSrcDrain (slot : BitVec 8) (s : State) : Result :=
  withSource (Instr.srcDrain slot).header slot s (fun st => st = .running) fun sl =>
    let w := (drained s.cfg sl).foldl (drainBuffer s.cfg) (workOn sl)
    succeed [u32 (drained s.cfg sl).length, u32 w.nblk, u32 w.nsym] (s.store slot.toNat w)

/-! ### Status, attach, correction (R311 to R313) -/

/-- `SRC.STATUS` (R311): reads, then clears `SRC.OVF`. -/
def execSrcStatus (slot : BitVec 8) (s : State) : Result :=
  withSlot (Instr.srcStatus slot).header slot s fun sl =>
    succeed [slotFlags sl, u32 sl.src.q.length, sl.src.ovfCount]
      (s.setSlot slot.toNat { sl with src := { sl.src with ovf := false } })

/-- `SRC.ATTACH` (R312): in every slot state, writes these two bits only. -/
def execSrcAttach (slot : BitVec 8) (consumer tap : Bool) (s : State) : Result :=
  withSlot (Instr.srcAttach slot consumer tap).header slot s fun sl =>
    succeed [] (s.setSlot slot.toNat { sl with src := { sl.src with consumer := consumer, tapen := tap } })

/-- `SRC.SETCORR` (R313): this source's mixer is re-programmed, its phase kept. -/
def execSrcSetcorr (slot : BitVec 8) (corr : Word) (s : State) : Result :=
  withSource (Instr.srcSetcorr slot corr).header slot s (fun st => st = .idle ∨ st = .running) fun sl =>
    succeed []
      (s.setSlot slot.toNat
        { sl with
          src := { sl.src with corr := corr }
          mix := { sl.mix with inc := mixInc (s.fc.freq.toInt - sl.src.chFreq.toInt - corr.toInt) s.fc.rate } })

end Sys2Proof.Machine
end

