-- ==== Sys2Proof/Machine/Sys.lean ====
section
/-! DEFINITION. SYS, housekeeping (46_sys.md). -/

namespace Sys2Proof.Machine

/-- `SYS.NOP` (R331). -/
def execSysNop (s : State) : Result := succeed [] s

/-- Reset as a command (R332; 70_reset_and_hazards.md R380 to R382): every register at its reset value; the output
ports, the build parameters, the pending commands and the responses already given are no registers and stay
(log 1, 2, 9). -/
def State.resetCore (s : State) : State :=
  { State.resetWith s.cfg with ports := s.ports, cmd := s.cmd, resp := s.resp }

/-- `SYS.RESET` (R332): nothing is emitted. -/
def execSysReset (s : State) : Result := succeed [] s.resetCore

/-- `SYS.STATUS` (R333): reads the error registers, then clears two of them. -/
def execSysStatus (s : State) : Result :=
  succeed [s.err.stat.setWidth 32, s.err.info, s.err.cnt] { s with err := { s.err with stat := 0, info := 0 } }

/-- `SYS.INFO` (R334). -/
def execSysInfo (s : State) : Result :=
  succeed
    [version, u32 s.cfg.nsrc, u32 s.cfg.cicOrder, u32 s.cfg.outBlock, u32 s.cfg.qcap, u32 s.cfg.drainCap,
      u32 s.cfg.cacheCap, u32 s.cfg.nlisten] s

end Sys2Proof.Machine
end

