-- ==== Sys2Proof/Machine/Dispatch.lean ====
section
/-! DEFINITION. The meaning of every command: one arm per constructor of Instr. -/

namespace Sys2Proof.Machine

def exec (i : Instr) (s : State) : Host.Outcome State Fault Refusal :=
  match i with
  | .sysNop => Sys2Proof.Machine.execSysNop s
  | .sysReset => Sys2Proof.Machine.execSysReset s
  | .sysStatus => Sys2Proof.Machine.execSysStatus s
  | .sysInfo => Sys2Proof.Machine.execSysInfo s
  | .fcGetfreq => Sys2Proof.Machine.execFcGetfreq s
  | .fcSetfreq f => Sys2Proof.Machine.execFcSetfreq f s
  | .fcGetrate => Sys2Proof.Machine.execFcGetrate s
  | .fcSetrate rate => Sys2Proof.Machine.execFcSetrate rate s
  | .fcSetppm ppm => Sys2Proof.Machine.execFcSetppm ppm s
  | .fcSetbounds min max => Sys2Proof.Machine.execFcSetbounds min max s
  | .fcSetblackout bw => Sys2Proof.Machine.execFcSetblackout bw s
  | .fcSetusable num den => Sys2Proof.Machine.execFcSetusable num den s
  | .fcGetstate => Sys2Proof.Machine.execFcGetstate s
  | .fcListen mask => Sys2Proof.Machine.execFcListen mask s
  | .allocGetsource r freq bw pass stop => Sys2Proof.Machine.execAllocGetsource r freq bw pass stop s
  | .allocRelease freq => Sys2Proof.Machine.execAllocRelease freq s
  | .allocQuery index => Sys2Proof.Machine.execAllocQuery index s
  | .srcStart slot => Sys2Proof.Machine.execSrcStart slot s
  | .srcStop slot => Sys2Proof.Machine.execSrcStop slot s
  | .srcDrain slot => Sys2Proof.Machine.execSrcDrain slot s
  | .srcFeed x => Sys2Proof.Machine.execSrcFeed x s
  | .srcStatus slot => Sys2Proof.Machine.execSrcStatus slot s
  | .srcAttach slot consumer tap => Sys2Proof.Machine.execSrcAttach slot consumer tap s
  | .srcSetcorr slot corr => Sys2Proof.Machine.execSrcSetcorr slot corr s
  | .mixSetfreq slot f rate => Sys2Proof.Machine.execMixSetfreq slot f rate s
  | .mixNext slot => Sys2Proof.Machine.execMixNext slot s
  | .mixStep slot x => Sys2Proof.Machine.execMixStep slot x s
  | .mixGetstate slot => Sys2Proof.Machine.execMixGetstate slot s
  | .cicCfg slot r rate pass stop => Sys2Proof.Machine.execCicCfg slot r rate pass stop s
  | .cicPush slot x => Sys2Proof.Machine.execCicPush slot x s
  | .cicPushblk slot x => Sys2Proof.Machine.execCicPushblk slot x s
  | .cicGetcfg slot k => Sys2Proof.Machine.execCicGetcfg slot k s
  | .pskCfg slot sps ted alpha beta fmax gainmu gainomega => Sys2Proof.Machine.execPskCfg slot sps ted alpha beta fmax gainmu gainomega s
  | .pskStep slot x => Sys2Proof.Machine.execPskStep slot x s
  | .pskStepblk slot x => Sys2Proof.Machine.execPskStepblk slot x s
  | .pskGetstate slot => Sys2Proof.Machine.execPskGetstate slot s

end Sys2Proof.Machine
end

