-- ==== Sys2Proof/Machine/Fetch.lean ====
section
/-! DEFINITION. The command port (00_scope.md R2; 20_memory.md R82, R85, R89): what an agent presents, and taking the
next record. The core fetches nothing from storage (10_state.md R31; 20_memory.md R93); log 2 says how a program comes
to run. -/

namespace Sys2Proof.Machine

/-- An agent presents words at the command port, after all that were presented before (20_memory.md R89). -/
def State.present (s : State) (ws : List Word) : State := { s with cmd := s.cmd ++ ws }

/-- What stands at the head of the command port. -/
def State.fetch (s : State) : Decoded := decode s.cmd

/-- The record is consumed, the words after it stay (30_encoding.md R103). -/
def State.consume (s : State) (rest : List Word) : State := { s with cmd := rest }

/-- An illegal header: one word consumed, answered `E_ILLEGAL` (30_encoding.md R103, R108; 60_exceptions.md R346). -/
def State.rejectHeader (s : State) (h : Word) (rest : List Word) : State := (s.consume rest).raise h .illegal

/-- The words of a record at the head of the command port, before all that is pending. -/
def State.presentFirst (s : State) (ws : List Word) : State := { s with cmd := ws ++ s.cmd }

end Sys2Proof.Machine
end

