-- ==== Sys2Proof/Machine/Step.lean ====
section
/-! DEFINITION. One step of the core: the next record of the command port is consumed and executed (00_scope.md R2). -/

namespace Sys2Proof.Machine

/-- One step. With no word presented the core waits unchanged (60_exceptions.md R368; 70_reset_and_hazards.md R380;
log 3); a record cut short is no command (20_memory.md R85; log 4). -/
def step (s : State) : Host.Outcome State Fault Refusal :=
  match s.fetch with
  | .empty => .next s
  | .cutShort => .fault .cutShort
  | .illegal h rest => .next (s.rejectHeader h rest)
  | .command i rest => exec i (s.consume rest)

/-- The state with the record whose bits are `w` at the head of its command port (log 2). -/
def State.withFetchWord (s : State) (nbits w : Nat) : State := s.presentFirst (recordWords nbits w)

end Sys2Proof.Machine
end

