-- ==== Sys2Proof/WellFormed.lean ====
section
/-! DEFINITION. Which terms of `Instr` are commands of the core: a block command's sample count is its 16-bit IMM
field (30_encoding.md R100, R103). Every other field is exactly as wide as its operand's type. -/

namespace Sys2Proof

/-- The number of samples of a block fits the IMM field (30_encoding.md R100). -/
abbrev blockFits (x : List C32) : Bool := x.length < 65536

/-- A command that has an encoding. -/
def Instr.wellFormed : Instr → Bool
  | .srcFeed x => blockFits x
  | .cicPushblk _ x => blockFits x
  | .pskStepblk _ x => blockFits x
  | .sysNop | .sysReset | .sysStatus | .sysInfo => true
  | .fcGetfreq | .fcSetfreq _ | .fcGetrate | .fcSetrate _ | .fcSetppm _ | .fcSetbounds _ _ | .fcSetblackout _
  | .fcSetusable _ _ | .fcGetstate | .fcListen _ => true
  | .allocGetsource _ _ _ _ _ | .allocRelease _ | .allocQuery _ => true
  | .srcStart _ | .srcStop _ | .srcDrain _ | .srcStatus _ | .srcAttach _ _ _ | .srcSetcorr _ _ => true
  | .mixSetfreq _ _ _ | .mixNext _ | .mixStep _ _ | .mixGetstate _ => true
  | .cicCfg _ _ _ _ _ | .cicPush _ _ | .cicGetcfg _ _ => true
  | .pskCfg _ _ _ _ _ _ _ _ | .pskStep _ _ | .pskGetstate _ => true

end Sys2Proof
end

