-- ==== Sys2Proof/Safety.lean ====
section
/-! DEFINITION. What counts as a sound state and a safe run, in the terms the statements use: the invariants the spec
says every rule keeps, the agents and the interleavings of their records, and what the environment can observe. -/

namespace Sys2Proof.Machine

/-! ### Tables of the command set (30_encoding.md R106) -/

/-- The SLOT field of a command that has one (R106). -/
def slotField : Instr → Option (BitVec 8)
  | .srcStart k | .srcStop k | .srcDrain k | .srcStatus k | .srcAttach k _ _ | .srcSetcorr k _ => some k
  | .mixSetfreq k _ _ | .mixNext k | .mixStep k _ | .mixGetstate k => some k
  | .cicCfg k _ _ _ _ | .cicPush k _ | .cicPushblk k _ | .cicGetcfg k _ => some k
  | .pskCfg k _ _ _ _ _ _ _ | .pskStep k _ | .pskStepblk k _ | .pskGetstate k => some k
  | .sysNop | .sysReset | .sysStatus | .sysInfo => none
  | .fcGetfreq | .fcSetfreq _ | .fcGetrate | .fcSetrate _ | .fcSetppm _ | .fcSetbounds _ _ | .fcSetblackout _
  | .fcSetusable _ _ | .fcGetstate | .fcListen _ => none
  | .allocGetsource _ _ _ _ _ | .allocRelease _ | .allocQuery _ | .srcFeed _ => none

/-- The number of result words of a command that succeeds (R106). -/
def resultCount : Instr → Nat
  | .sysStatus => 3
  | .sysInfo => 8
  | .fcGetfreq => 2
  | .fcGetrate => 1
  | .fcGetstate => 12
  | .allocGetsource _ _ _ _ _ => 1
  | .allocRelease _ => 1
  | .allocQuery _ => 5
  | .srcDrain _ => 3
  | .srcFeed _ => 2
  | .srcStatus _ => 3
  | .mixNext _ => 2
  | .mixStep _ _ => 2
  | .mixGetstate _ => 3
  | .cicPush _ _ => 2
  | .cicPushblk _ _ => 2
  | .cicGetcfg _ _ => 5
  | .pskStep _ _ => 3
  | .pskStepblk _ _ => 1
  | .pskGetstate _ => 7
  | .sysNop | .sysReset | .fcSetfreq _ | .fcSetrate _ | .fcSetppm _ | .fcSetbounds _ _ | .fcSetblackout _
  | .fcSetusable _ _ | .fcListen _ => 0
  | .srcStart _ | .srcStop _ | .srcAttach _ _ _ | .srcSetcorr _ _ => 0
  | .mixSetfreq _ _ _ | .cicCfg _ _ _ _ _ | .pskCfg _ _ _ _ _ _ _ _ => 0

/-- The commands a locked controller refuses (43_fc.md R240; 60_exceptions.md R355). -/
def refusedWhileLocked : Instr → Bool
  | .fcSetfreq _ | .fcSetrate _ | .fcSetbounds _ _ | .fcSetblackout _ | .fcSetusable _ _ => true
  | _ => false

/-- The standalone commands: those that need the slot's unit to belong to no live source (45_src.md R301). -/
def standalone : Instr → Bool
  | .mixSetfreq _ _ _ | .mixNext _ | .mixStep _ _ | .cicCfg _ _ _ _ _ | .cicPush _ _ | .cicPushblk _ _
  | .pskStep _ _ | .pskStepblk _ _ => true
  | _ => false

/-! ### Invariants of the spec -/

/-- The shape of a state: legal parameters, as many slots and ports as the parameters say (10_state.md R30, R61),
the listener bits above `NLISTEN` zero, the usable fraction a fraction (R32), no more cached designs than `CACHE_CAP`
(R37). -/
abbrev ShapeOk (s : State) : Prop :=
  s.cfg.Legal ∧ s.slots.length = s.cfg.nsrc ∧ s.ports.out.length = s.cfg.nsrc ∧ s.ports.tap.length = s.cfg.nsrc ∧
  s.ports.evt.length = s.cfg.nlisten ∧ s.fc.listenMask.toNat < 2 ^ s.cfg.nlisten ∧
  s.fc.ufDen ≠ 0 ∧ s.fc.ufNum.toNat ≤ s.fc.ufDen.toNat ∧ s.cache.length ≤ s.cfg.cacheCap

/-- The correction keeps its divisor positive (43_fc.md R242, R246). -/
abbrev PpmOk (s : State) : Prop := 0 < ppmWhole s.cfg + s.fc.ppm.toInt

/-- 10_state.md R34, 43_fc.md R256: a valid frequency is tuned within the bounds, to the corrected value. -/
abbrev TunerOk (s : State) : Prop :=
  s.fc.freqValid = true →
    s.fc.min.toInt ≤ s.fc.tuned.toInt ∧ s.fc.tuned.toInt ≤ s.fc.max.toInt ∧
    s.fc.tuned.toInt = resolve s.cfg s.fc.freq.toInt s.fc.ppm.toInt

/-- 10_state.md R35, R36: the active set is strictly ascending in legal frequencies, its entries are exactly the live
slots, no two entries share a slot, and the controller is locked exactly while it is not empty. -/
abbrev AllocOk (s : State) : Prop :=
  s.active.Pairwise (fun a b => a.freq.toInt < b.freq.toInt) ∧
  s.active.Pairwise (fun a b => a.slot ≠ b.slot) ∧
  (∀ c ∈ s.active, legalFreq c.freq = true ∧ c.slot.toNat < s.cfg.nsrc ∧ (s.slot c.slot.toNat).live = true ∧
    (s.slot c.slot.toNat).src.chFreq = c.freq ∧ (s.slot c.slot.toNat).src.chBw = c.bw) ∧
  (∀ k < s.cfg.nsrc, (s.slot k).live = true → ∃ c ∈ s.active, c.slot.toNat = k) ∧
  (s.fc.locked = true ↔ s.active ≠ [])

/-- 43_fc.md R259: a rate is set whenever a channel is active. -/
abbrev RateOk (s : State) : Prop := s.active ≠ [] → s.fc.rate ≠ 0

/-- 45_src.md R302: every live source's mixer is programmed to its offset. -/
abbrev MixerOk (s : State) : Prop :=
  ∀ k < s.cfg.nsrc, (s.slot k).live = true →
    (s.slot k).mix.cfgd = true ∧
    (s.slot k).mix.inc =
      mixInc (s.fc.freq.toInt - (s.slot k).src.chFreq.toInt - (s.slot k).src.corr.toInt) s.fc.rate

/-- 44_alloc.md R290, first sentence: the active channels fit the window around the tuner frequency. -/
abbrev WindowOk (s : State) : Prop :=
  s.active ≠ [] → s.fc.freqValid = true ∧ inWindow s.fc.halfwin s.active s.fc.freq.toInt = true

/-- The invariants of the controller and the allocator together. -/
abbrev CoreInv (s : State) : Prop :=
  ShapeOk s ∧ PpmOk s ∧ TunerOk s ∧ AllocOk s ∧ RateOk s ∧ MixerOk s ∧ WindowOk s

/-- 45_src.md R317, 10_state.md R41: at most `QCAP` buffers a queue, each of 1 to `BUF_MAX` samples. -/
abbrev QueuesOk (s : State) : Prop :=
  s.cfg.Legal ∧ ∀ sl ∈ s.slots, sl.src.q.length ≤ s.cfg.qcap ∧ ∀ b ∈ sl.src.q, 1 ≤ b.length ∧ b.length ≤ s.cfg.bufMax

/-- The tuned values of the `SET_FREQ` items on `DEV`. -/
def tunedItems (items : List DevItem) : List (BitVec 64) :=
  items.filterMap fun
    | .setFreq t => some t
    | .setRate _ => none

/-- 43_fc.md R257, last sentence, as long as a frequency has been set since reset (70_reset_and_hazards.md R382): the
last `SET_FREQ` on `DEV` carries `FC.TUNED`. -/
abbrev DeviceTold (s : State) : Prop :=
  s.fc.freqValid = true → (tunedItems s.ports.dev).getLast? = some s.fc.tuned

/-- 10_state.md R48: the shape of a Stage element of a factor. -/
abbrev StageOk (f : Nat) (st : Stage) : Prop := st.buf.length = f - 1 ∧ st.idx < f - 1

/-- 10_state.md R47 to R49: the shape of a constructed decimator. -/
abbrev CicOk (c : Config) (u : Cic) : Prop :=
  u.cfgd = true →
    (∀ d ∈ u.ds, 2 ≤ d.fact.toNat ∧ d.dcnt < d.fact.toNat ∧ d.st.length = c.cicOrder ∧
      ∀ st ∈ d.st, StageOk d.fact.toNat st) ∧
    u.x.length = u.taps.length ∧ u.blk.length = c.outBlock ∧ u.blkn < c.outBlock

/-- Every slot's decimator has its shape. -/
abbrev DecimatorsOk (s : State) : Prop := s.cfg.Legal ∧ ∀ sl ∈ s.slots, CicOk s.cfg sl.cic

/-- What `PSK.CFG` has accepted and set for good (42_psk.md R191, R192), and the depth of the delay line. -/
abbrev PskConfigured (u : Psk) : Prop :=
  spsMin ≤ u.sps.toNat ∧ u.sps.toNat ≤ spsMax ∧
  legalGain u.alpha = true ∧ legalGain u.beta = true ∧ legalFmax u.fmax = true ∧ legalGain u.gainMu = true ∧
  legalGain u.gainOmega = true ∧
  u.omegaMin = fsub (i2f u.sps.toNat) (omegaLimit u.sps) ∧ u.omegaMax = fadd (i2f u.sps.toNat) (omegaLimit u.sps) ∧
  u.dl.length = 2 * u.sps.toNat

/-- 42_psk.md R225, the loop invariant of a configured PSK unit. -/
abbrev LoopOk (u : Psk) : Prop :=
  u.cfgd = true →
    PskConfigured u ∧
    (isFinite u.lphase = true ∧ isFinite u.lfreq = true ∧ isFinite u.mu = true ∧ isFinite u.omega = true) ∧
    fle (fabs u.lphase) fPI = true ∧ fle (fabs u.lfreq) u.fmax = true ∧
    fle u.omegaMin u.omega = true ∧ fle u.omega u.omegaMax = true ∧
    fle fZERO u.mu = true ∧ flt u.mu fONE = true ∧
    1 ≤ u.skip.toNat ∧ u.skip.toNat ≤ 2 * u.sps.toNat

/-- Every slot's loop keeps its invariant. -/
abbrev LoopsOk (s : State) : Prop := ∀ sl ∈ s.slots, LoopOk sl.psk

/-! ### What a command leaves -/

/-- The state without the log of responses: what commands in another order can be compared on. -/
def State.withoutResponses (s : State) : State := { s with resp := [] }

/-- A slot without its two observer bits (42_psk.md R226). -/
def Slot.withoutObservers (sl : Slot) : Slot := { sl with src := { sl.src with consumer := false, tapen := false } }

/-- The registers of the core without the two observer bits of every slot, and without ports and responses: what
attaching a consumer or a tap must not alter (42_psk.md R226; 10_state.md R65). -/
def State.withoutObservers (s : State) : State :=
  { s with slots := s.slots.map Slot.withoutObservers, ports := .silent s.cfg, resp := [] }

/-- The state after a command, the state itself where the command stops the machine. -/
def after (i : Instr) (s : State) : State :=
  match exec i s with
  | .next t => t
  | _ => s

/-- The state after a sequence of commands. -/
def afterAll (is : List Instr) (s : State) : State := is.foldl (fun t i => after i t) s

/-- Every port of `t` holds what it held in `s`, with items appended (10_state.md R61). -/
abbrev PortsExtend (s t : State) : Prop :=
  s.ports.dev <+: t.ports.dev ∧ s.ports.warn <+: t.ports.warn ∧
  List.Forall₂ (· <+: ·) s.ports.evt t.ports.evt ∧ List.Forall₂ (· <+: ·) s.ports.out t.ports.out ∧
  List.Forall₂ (· <+: ·) s.ports.tap t.ports.tap

/-- The state after a successful command that changed no register: one more response, status OK, these results
(30_encoding.md R102). -/
def State.answering (s : State) (results : List Word) : State :=
  { s with resp := s.resp ++ [BitVec.ofNat 32 (256 * results.length) :: results] }

/-- The state after a successful command that wrote one slot: its registers, and one more response. -/
def State.put (s : State) (k : BitVec 8) (sl : Slot) (results : List Word) : State :=
  { s with slots := s.slots.set k.toNat sl }.answering results

/-- The slot exists and holds no live source: its units may be driven directly (45_src.md R301). -/
abbrev Standalone (s : State) (k : BitVec 8) : Prop :=
  k.toNat < s.cfg.nsrc ∧ ((s.slot k.toNat).src.state = .free ∨ (s.slot k.toNat).src.state = .stopped)

/-- A slot's field of a header (30_encoding.md R100). -/
def slotBits (k : BitVec 8) : Word := k.setWidth 32 <<< 16

/-- The result word at a place of each of the responses given since a state, added up. -/
def sumOfResults (s t : State) (place : Nat) : Nat :=
  ((t.resp.drop s.resp.length).map fun r => (r.getD place 0).toNat).sum

/-- Where the oldest entry of a circular history stands first: the history, oldest input first (41_cic.md R158). -/
def Stage.history (st : Stage) : List C32 := st.buf.rotate st.idx

/-! ### Correct rounding (00_scope.md R9) -/

/-- The magnitude from which a real rounds to an infinity: halfway between the largest finite datum and 2^128. -/
def overflowAt : ℚ := 2 ^ 128 - 2 ^ 103

/-- `r` is the real `x` correctly rounded to nearest, ties to even (00_scope.md R9): an infinity of its sign from the
overflow threshold on, else a finite datum of its sign that no finite datum is nearer than, and the even one of two as
near. -/
def RoundsTo (r : F32) (x : ℝ) : Prop :=
  ((overflowAt : ℝ) ≤ x → r = infOf false) ∧
  (x ≤ -(overflowAt : ℝ) → r = infOf true) ∧
  (|x| < (overflowAt : ℝ) →
    isFinite r = true ∧ (0 < x → signBit r = false) ∧ (x < 0 → signBit r = true) ∧
    ∀ z : F32, isFinite z = true →
      |(valueOf r : ℝ) - x| ≤ |(valueOf z : ℝ) - x| ∧
      (|(valueOf z : ℝ) - x| = |(valueOf r : ℝ) - x| → valueOf z ≠ valueOf r → magBits r % 2 = 0))

/-! ### Agents (60_exceptions.md R360, 20_memory.md R89; log 2) -/

/-- The three kinds of agent. -/
inductive Agent where
  | host | capture | tick
deriving DecidableEq, Repr

/-- The commands an agent issues: CAPTURE only `SRC.FEED`, TICK only `SRC.DRAIN`, HOST any (R360). The core does not
check it (R355). -/
def Agent.mayIssue : Agent → Instr → Bool
  | .host, _ => true
  | .capture, .srcFeed _ => true
  | .capture, _ => false
  | .tick, .srcDrain _ => true
  | .tick, _ => false

/-- `Interleaves as bs cs`: `cs` is `as` and `bs` merged, each in its own order (20_memory.md R89: every
interleaving at command granularity is a possible execution). -/
inductive Interleaves : List Instr → List Instr → List Instr → Prop where
  | nil : Interleaves [] [] []
  | left (i : Instr) (as bs cs : List Instr) : Interleaves as bs cs → Interleaves (i :: as) bs (i :: cs)
  | right (i : Instr) (as bs cs : List Instr) : Interleaves as bs cs → Interleaves as (i :: bs) (i :: cs)

/-- The words at the command port that a total order of commands puts there (20_memory.md R89). -/
def streamOf (is : List Instr) : List Word := is.flatMap encode

end Sys2Proof.Machine
end

