-- ==== Sys2Proof/Certificates/Slice0/Obligations.lean ====
section
/-! DEFINITION. The statements for the provers. Each says which rules of spec/ it formalises. -/

open Sys2Proof Sys2Proof.Machine

/-! ### Encoding and decoding (30_encoding.md) -/

/-- R100, R101, R103, R106: the decoder reads every command back from its record, whatever follows it. -/
def Obligations.DecodeOfEncodeIsTheCommand : Prop :=
  ∀ (i : Instr) (rest : List Word), i.wellFormed = true → decode (encode i ++ rest) = .command i rest

/-- R107, R108: a header is legal exactly when it selects a row of the opcode table, and it never selects two. -/
def Obligations.LegalHeaderSelectsOneRow : Prop :=
  ∀ h : Word,
    ((operandWords h).isSome = true ↔ ∃ r ∈ opcodeTable, r.selectedBy h = true) ∧
    (∀ r ∈ opcodeTable, ∀ r' ∈ opcodeTable, r.selectedBy h = true → r'.selectedBy h = true → r = r')

/-- R106: written-out records decode to the commands they stand for (95_test_vectors.md V-ENC-1, P1). -/
def Obligations.WrittenOutRecordsDecode : Prop :=
  decode [0x00000000#32] = .command .sysNop [] ∧
  decode [0x15000000#32, 0x000186A0#32, 0x00000000#32, 0x77359400#32, 0x00000000#32] =
    .command (.fcSetbounds 100000#64 2000000000#64) [] ∧
  decode [0x20000008#32, 0x000F4240#32, 0x00000000#32, 0x00002710#32, 0x00001388#32, 0x0000186A#32] =
    .command (.allocGetsource 8#16 1000000#64 10000#32 5000#32 6250#32) [] ∧
  decode [0x35010003#32] = .command (.srcAttach 1#8 true true) [] ∧
  decode [0x40000000#32, 0x00002EE0#32, 0x00000000#32, 0x0000BB80#32] =
    .command (.mixSetfreq 0#8 12000#64 48000#32) [] ∧
  decode [0x50000006#32, 0x0000BB80#32, 0x00000BB8#32, 0x00000FA0#32] =
    .command (.cicCfg 0#8 6#16 48000#32 3000#32 4000#32) [] ∧
  decode [0x6001000A#32, 0x3D800000#32, 0x3B000000#32, 0x3F000000#32, 0x3D800000#32, 0x3B000000#32] =
    .command (.pskCfg 1#8 10#8 false 0x3D800000#32 0x3B000000#32 0x3F000000#32 0x3D800000#32 0x3B000000#32) []

/-! ### The step (00_scope.md R2, 20_memory.md R85) -/

/-- R2, 20_memory.md R89: a step whose command port holds a command's record runs that command, its record consumed. The
port's pending words are a field of the model's own (log 2). -/
def Obligations.StepRunsTheDecodedCommand : Prop :=
  ∀ (s : State) (i : Instr) (rest : List Word), i.wellFormed = true → decode s.cmd = .command i rest →
    step s = exec i { s with cmd := rest }

/-- 30_encoding.md R108, 60_exceptions.md R346: an illegal header consumes one word, is answered `E_ILLEGAL` and changes
nothing but the error registers. -/
def Obligations.IllegalHeaderConsumesOneWord : Prop :=
  ∀ (s : State) (h : Word) (rest : List Word), s.cmd = h :: rest →
    (∀ r ∈ opcodeTable, r.selectedBy h = false) →
    step s = .next { s with
      cmd := rest
      err := ⟨0x01#8, h, if s.err.cnt.toNat = 2 ^ 32 - 1 then s.err.cnt else s.err.cnt + 1#32⟩
      resp := s.resp ++ [[0x00000001#32]] }

/-- 20_memory.md R85 (the fault is the model's name for "no transition", log 4) and the wait of an idle core (the
model's choice, log 3). -/
def Obligations.CutShortStopsAndIdleWaits : Prop :=
  (∀ (s : State) (i : Instr) (k : Nat), i.wellFormed = true → k < i.operands.length →
    s.cmd = i.header :: i.operands.take k → step s = .fault .cutShort) ∧
  (∀ s : State, s.cmd = [] → step s = .next s)

/-- 20_memory.md R89: the words of any total order of commands, of any agents interleaved in any way, are executed one
command at a time in that order. A `SYS.RESET` may stand in the stream and the words behind it still run: that reset
leaves the pending words is the model's choice (log 2). -/
def Obligations.InterleavedStreamsRunInOrder : Prop :=
  ∀ (as bs cs : List Instr) (s : State), Interleaves as bs cs → (∀ i ∈ as, i.wellFormed = true) →
    (∀ i ∈ bs, i.wellFormed = true) → s.cmd = streamOf cs →
    Host.Core.run Sys2Proof.core cs.length s = .next { afterAll cs s with cmd := [] }

/-! ### Errors and the lock (60_exceptions.md) -/

/-- R346, R340, R341, 30_encoding.md R102, R106: what error entry records, and the codes of the statuses; and every command
is answered, with one response record. It either fails with one status and leaves the state as it was but for the three error registers, or succeeds with the number of results of
its row, and then only `SYS.STATUS` and `SYS.RESET` write an error register. The build and the pending words stay in
both cases: that the build is a field no command writes, and that `SYS.RESET` too leaves the pending words, are the
model's choices (log 1, log 2). -/
def Obligations.EveryCommandSucceedsOrFailsPrecisely : Prop :=
  (∀ (s : State) (h : Word) (e : Status), s.raise h e = { s with
      err := ⟨statusCode e, h, if s.err.cnt.toNat = 2 ^ 32 - 1 then s.err.cnt else s.err.cnt + 1#32⟩
      resp := s.resp ++ [[(statusCode e).setWidth 32]] }) ∧
  [Status.ok, .illegal, .slot, .state, .stopped, .notcfg, .operand, .ratio, .filter, .infeasible, .duplicate, .full,
      .locked, .range].map statusCode =
    [0x00, 0x01, 0x02, 0x03, 0x04, 0x05, 0x06, 0x10, 0x11, 0x20, 0x21, 0x22, 0x30, 0x31] ∧
  ∀ (i : Instr) (s : State), ∃ t, exec i s = .next t ∧
    ((∃ e, e ≠ Status.ok ∧ t = s.raise i.header e) ∨
     ((∃ results : List Word, results.length = resultCount i ∧
        t.resp = s.resp ++ [BitVec.ofNat 32 (256 * resultCount i) :: results]) ∧
      t.cfg = s.cfg ∧ t.cmd = s.cmd ∧ (i ≠ .sysStatus → i ≠ .sysReset → t.err = s.err)))

/-- 43_fc.md R240, R255, 60_exceptions.md R344, R355. Locked, the five setters answer `E_LOCKED` whatever their
operands, and no command but `ALLOC.GETSOURCE` and `SYS.RESET` changes the frequency or one of the registers the lock
protects. Only `ALLOC.GETSOURCE` locks; only a release that empties the active set and a reset unlock. -/
def Obligations.LockGuardsTheTuner : Prop :=
  (∀ (i : Instr) (s : State), s.fc.locked = true → refusedWhileLocked i = true →
    exec i s = .next (s.raise i.header .locked)) ∧
  (∀ (i : Instr) (s t : State), s.fc.locked = true → exec i s = .next t → i ≠ .sysReset →
    t.fc.rate = s.fc.rate ∧ t.fc.min = s.fc.min ∧ t.fc.max = s.fc.max ∧ t.fc.blackout = s.fc.blackout ∧
    t.fc.ufNum = s.fc.ufNum ∧ t.fc.ufDen = s.fc.ufDen ∧
    ((∀ r freq bw pass stop, i ≠ .allocGetsource r freq bw pass stop) → t.fc.freq = s.fc.freq)) ∧
  (∀ (i : Instr) (s t : State), exec i s = .next t → t.fc.locked ≠ s.fc.locked →
    (t.fc.locked = true ∧ ∃ r freq bw pass stop, i = .allocGetsource r freq bw pass stop) ∨
    (t.fc.locked = false ∧ t.active = [] ∧
      (i = .sysReset ∨ (∃ freq, i = .allocRelease freq) ∨ ∃ k, i = .srcStop k)))

/-- R341, R344: every command with a SLOT field answers `E_SLOT` for a slot that does not exist, before any other
test. -/
def Obligations.MissingSlotIsRefusedFirst : Prop :=
  ∀ (i : Instr) (k : BitVec 8) (s : State), slotField i = some k → s.cfg.nsrc ≤ k.toNat →
    exec i s = .next (s.raise i.header .slot)

/-- 45_src.md R301, 40_mix.md R130, 41_cic.md R150, 42_psk.md R190: the standalone commands answer `E_STATE` on a slot
that holds a live source. -/
def Obligations.LiveSlotRefusesStandaloneCommands : Prop :=
  ∀ (i : Instr) (k : BitVec 8) (s : State), standalone i = true → slotField i = some k → k.toNat < s.cfg.nsrc →
    ((s.slot k.toNat).src.state = .idle ∨ (s.slot k.toNat).src.state = .running) →
    exec i s = .next (s.raise i.header .state)

/-! ### SYS (46_sys.md) and reset (10_state.md R70) -/

/-- 46_sys.md R331, R333, R334. -/
def Obligations.SysNopStatusInfoAnswer : Prop :=
  ∀ s : State,
    (encode .sysNop = [0x00000000#32] ∧ encode .sysStatus = [0x02000000#32] ∧ encode .sysInfo = [0x03000000#32]) ∧
    exec .sysNop s = .next { s with resp := s.resp ++ [[0x00000000#32]] } ∧
    exec .sysStatus s = .next { s with
      err := { stat := 0, info := 0, cnt := s.err.cnt }
      resp := s.resp ++ [[0x00000300#32, BitVec.ofNat 32 s.err.stat.toNat, s.err.info, s.err.cnt]] } ∧
    exec .sysInfo s = .next { s with
      resp := s.resp ++ [[0x00000800#32, 1#32, BitVec.ofNat 32 s.cfg.nsrc, BitVec.ofNat 32 s.cfg.cicOrder,
        BitVec.ofNat 32 s.cfg.outBlock, BitVec.ofNat 32 s.cfg.qcap, BitVec.ofNat 32 s.cfg.drainCap,
        BitVec.ofNat 32 s.cfg.cacheCap, BitVec.ofNat 32 s.cfg.nlisten]] }

/-- 10_state.md R70, with the tables it names (R32, R41, R45, R47, R52, R53, R66), for every build. `BLKN` is the
model's choice (log 12). -/
def Obligations.ResetValuesOfEveryRegister : Prop :=
  ∀ c : Config,
    (State.resetWith c).fc =
      { freq := 0, tuned := 0, freqValid := false, min := 0, max := 0, ppm := 0, rate := 0, blackout := 0,
        ufNum := 0, ufDen := 1, locked := false, listenMask := 0 } ∧
    (State.resetWith c).active = [] ∧ (State.resetWith c).cache = [] ∧
    (State.resetWith c).err = { stat := 0, info := 0, cnt := 0 } ∧
    (State.resetWith c).slots.length = c.nsrc ∧
    ∀ k < c.nsrc, (State.resetWith c).slot k =
      { src := { state := .free, chFreq := 0, chBw := 0, corr := 0, consumer := false, tapen := false, q := [],
                 ovf := false, ovfCount := 0 }
        mix := { phase := 0, inc := 0, cfgd := false }
        cic := { cfgd := false, inRate := 0, r := 0, pass := 0, stop := 0, ds := [], taps := [], x := [], blk := [],
                 blkn := 0 }
        psk := { cfgd := false, alpha := 0#32, beta := 0#32, fmax := 0#32, lphase := 0#32, lfreq := 0#32, sps := 0,
                 ted := false, gainMu := 0#32, gainOmega := 0#32, mu := 0#32, omega := 0#32, omegaMin := 0#32,
                 omegaMax := 0#32, skip := 0, prev := ⟨0#32, 0#32⟩, dl := [] } }

/-- 46_sys.md R332, 70_reset_and_hazards.md R380, R382: every register at its reset value, from any state; ports
untouched, nothing emitted. That the words pending at the command port stay is the model's choice (log 2). -/
def Obligations.SysResetGivesResetState : Prop :=
  ∀ s : State,
    encode .sysReset = [0x01000000#32] ∧
    exec .sysReset s = .next { State.resetWith s.cfg with
      ports := s.ports, cmd := s.cmd, resp := s.resp ++ [[0x00000000#32]] }

/-! ### FC (43_fc.md) -/

/-- 43_fc.md R241, R244, R252. -/
def Obligations.FcGettersReadRegisters : Prop :=
  ∀ s : State,
    (encode .fcGetfreq = [0x10000000#32] ∧ encode .fcGetrate = [0x12000000#32] ∧
      encode .fcGetstate = [0x18000000#32]) ∧
    exec .fcGetfreq s = .next { s with
      resp := s.resp ++ [[0x00000200#32, s.fc.freq.extractLsb' 0 32, s.fc.freq.extractLsb' 32 32]] } ∧
    exec .fcGetrate s = .next { s with resp := s.resp ++ [[0x00000100#32, s.fc.rate]] } ∧
    exec .fcGetstate s = .next { s with
      resp := s.resp ++ [[0x00000C00#32,
        BitVec.ofNat 32 ((if s.fc.locked then 1 else 0) + (if s.fc.freqValid then 2 else 0)),
        s.fc.tuned.extractLsb' 0 32, s.fc.tuned.extractLsb' 32 32, s.fc.ppm,
        s.fc.min.extractLsb' 0 32, s.fc.min.extractLsb' 32 32,
        s.fc.max.extractLsb' 0 32, s.fc.max.extractLsb' 32 32,
        s.fc.blackout, s.fc.ufNum, s.fc.ufDen, BitVec.ofNat 32 s.fc.listenMask.toNat]] }

/-- The roundings of 00_scope.md section 4 where the core uses them. 43_fc.md R242: the tuned value is the nearest integer
to `f·S/(S + ppm)`, ties toward +∞, and `f` with no correction. 40_mix.md R133: the increment is the nearest integer
to `f·2^32/rate`, ties toward +∞, modulo 2^32. -/
def Obligations.RoundedQuotientsAreNearest : Prop :=
  (∀ (c : Config) (f ppm : Int), 1 ≤ c.ppmScale → 0 < 1000000 * (c.ppmScale : Int) + ppm →
    (2 * (f * (1000000 * c.ppmScale)) - (1000000 * c.ppmScale + ppm) <
        2 * resolve c f ppm * (1000000 * c.ppmScale + ppm) ∧
      2 * resolve c f ppm * (1000000 * c.ppmScale + ppm) ≤
        2 * (f * (1000000 * c.ppmScale)) + (1000000 * c.ppmScale + ppm)) ∧
    resolve c f 0 = f) ∧
  (∀ (f : Int) (rate : Word), rate ≠ 0 → ∃ n : Int, mixInc f rate = BitVec.ofInt 32 n ∧
    2 * (f * 2 ^ 32) - rate.toNat < 2 * n * rate.toNat ∧ 2 * n * rate.toNat ≤ 2 * (f * 2 ^ 32) + rate.toNat)

/-- 43_fc.md R247, R248: the privileged setter writes the two frequencies and the valid flag, tells the device, tells
every registered listener, and re-programs the mixer of every live source, its phase kept; nothing else changes. -/
def Obligations.FreqCommitTellsAllAndReprograms : Prop :=
  ∀ (s : State) (f t : BitVec 64),
    s.freqCommit f.toInt t.toInt = { s with
      fc := { s.fc with freq := f, tuned := t, freqValid := true }
      ports := { s.ports with
        dev := s.ports.dev ++ [.setFreq t]
        evt := (s.freqCommit f.toInt t.toInt).ports.evt }
      slots := (s.freqCommit f.toInt t.toInt).slots } ∧
    (s.freqCommit f.toInt t.toInt).ports.evt.length = s.ports.evt.length ∧
    (∀ (l : Nat) (log : List FreqChange), s.ports.evt[l]? = some log →
      (s.freqCommit f.toInt t.toInt).ports.evt[l]? =
        some (if s.fc.listenMask.getLsbD l then log ++ [⟨f, t⟩] else log)) ∧
    (s.freqCommit f.toInt t.toInt).slots.length = s.slots.length ∧
    (∀ (k : Nat) (sl : Slot), s.slots[k]? = some sl →
      (s.freqCommit f.toInt t.toInt).slots[k]? =
        some (if sl.src.state = .idle ∨ sl.src.state = .running then
            { sl with mix := { sl.mix with
                inc := mixInc (f.toInt - sl.src.chFreq.toInt - sl.src.corr.toInt) s.fc.rate } }
          else sl))

/-- 43_fc.md R243: the checks in order, then the privileged setter. -/
def Obligations.FcSetfreqChecksThenCommits : Prop :=
  ∀ (f : BitVec 64) (s : State),
    encode (.fcSetfreq f) = [0x11000000#32, f.extractLsb' 0 32, f.extractLsb' 32 32] ∧
    (s.fc.locked = true → exec (.fcSetfreq f) s = .next (s.raise 0x11000000#32 .locked)) ∧
    (s.fc.locked = false → (f.toInt < 0 ∨ 2 ^ 62 - 1 < f.toInt) →
      exec (.fcSetfreq f) s = .next (s.raise 0x11000000#32 .operand)) ∧
    (s.fc.locked = false → 0 ≤ f.toInt → f.toInt ≤ 2 ^ 62 - 1 →
      (resolve s.cfg f.toInt s.fc.ppm.toInt < s.fc.min.toInt ∨
        s.fc.max.toInt < resolve s.cfg f.toInt s.fc.ppm.toInt) →
      exec (.fcSetfreq f) s = .next (s.raise 0x11000000#32 .range)) ∧
    (s.fc.locked = false → 0 ≤ f.toInt → f.toInt ≤ 2 ^ 62 - 1 →
      s.fc.min.toInt ≤ resolve s.cfg f.toInt s.fc.ppm.toInt →
      resolve s.cfg f.toInt s.fc.ppm.toInt ≤ s.fc.max.toInt →
      exec (.fcSetfreq f) s =
        .next ((s.freqCommit f.toInt (resolve s.cfg f.toInt s.fc.ppm.toInt)).answering []))

/-- 43_fc.md R245, R246. `FC.SETRATE` stores the rate and tells the device. `FC.SETPPM` works in both modes; with a
frequency set the new correction is checked first and the frequency re-resolved and told again. -/
def Obligations.FcSetrateAndSetppmTellTheDevice : Prop :=
  (∀ (rate : Word) (s : State),
    encode (.fcSetrate rate) = [0x13000000#32, rate] ∧
    (s.fc.locked = true → exec (.fcSetrate rate) s = .next (s.raise 0x13000000#32 .locked)) ∧
    (s.fc.locked = false → rate = 0 → exec (.fcSetrate rate) s = .next (s.raise 0x13000000#32 .operand)) ∧
    (s.fc.locked = false → rate ≠ 0 → exec (.fcSetrate rate) s = .next { s with
      fc := { s.fc with rate := rate }
      ports := { s.ports with dev := s.ports.dev ++ [.setRate rate] }
      resp := s.resp ++ [[0x00000000#32]] })) ∧
  (∀ (ppm : Word) (s : State),
    encode (.fcSetppm ppm) = [0x14000000#32, ppm] ∧
    (1000000 * (s.cfg.ppmScale : Int) + ppm.toInt ≤ 0 →
      exec (.fcSetppm ppm) s = .next (s.raise 0x14000000#32 .operand)) ∧
    (0 < 1000000 * (s.cfg.ppmScale : Int) + ppm.toInt → s.fc.freqValid = false →
      exec (.fcSetppm ppm) s =
        .next { s with fc := { s.fc with ppm := ppm }, resp := s.resp ++ [[0x00000000#32]] }) ∧
    (0 < 1000000 * (s.cfg.ppmScale : Int) + ppm.toInt → s.fc.freqValid = true →
      (resolve s.cfg s.fc.freq.toInt ppm.toInt < s.fc.min.toInt ∨
        s.fc.max.toInt < resolve s.cfg s.fc.freq.toInt ppm.toInt) →
      exec (.fcSetppm ppm) s = .next (s.raise 0x14000000#32 .range)) ∧
    (0 < 1000000 * (s.cfg.ppmScale : Int) + ppm.toInt → s.fc.freqValid = true →
      s.fc.min.toInt ≤ resolve s.cfg s.fc.freq.toInt ppm.toInt →
      resolve s.cfg s.fc.freq.toInt ppm.toInt ≤ s.fc.max.toInt →
      exec (.fcSetppm ppm) s =
        .next (({ s with fc := { s.fc with ppm := ppm } }.freqCommit s.fc.freq.toInt
          (resolve s.cfg s.fc.freq.toInt ppm.toInt)).answering [])))

/-- 43_fc.md R249, R250, R251, R253. -/
def Obligations.FcPlainSettersStore : Prop :=
  (∀ (min max : BitVec 64) (s : State),
    encode (.fcSetbounds min max) = [0x15000000#32, min.extractLsb' 0 32, min.extractLsb' 32 32,
      max.extractLsb' 0 32, max.extractLsb' 32 32] ∧
    (s.fc.locked = true → exec (.fcSetbounds min max) s = .next (s.raise 0x15000000#32 .locked)) ∧
    (s.fc.locked = false → (min.toInt < 0 ∨ 2 ^ 62 - 1 < max.toInt ∨ max.toInt < min.toInt) →
      exec (.fcSetbounds min max) s = .next (s.raise 0x15000000#32 .operand)) ∧
    (s.fc.locked = false → 0 ≤ min.toInt → max.toInt ≤ 2 ^ 62 - 1 → min.toInt ≤ max.toInt →
      s.fc.freqValid = true → (s.fc.tuned.toInt < min.toInt ∨ max.toInt < s.fc.tuned.toInt) →
      exec (.fcSetbounds min max) s = .next (s.raise 0x15000000#32 .range)) ∧
    (s.fc.locked = false → 0 ≤ min.toInt → max.toInt ≤ 2 ^ 62 - 1 → min.toInt ≤ max.toInt →
      (s.fc.freqValid = true → min.toInt ≤ s.fc.tuned.toInt ∧ s.fc.tuned.toInt ≤ max.toInt) →
      exec (.fcSetbounds min max) s =
        .next { s with fc := { s.fc with min := min, max := max }, resp := s.resp ++ [[0x00000000#32]] })) ∧
  (∀ (bw : Word) (s : State),
    encode (.fcSetblackout bw) = [0x16000000#32, bw] ∧
    (s.fc.locked = true → exec (.fcSetblackout bw) s = .next (s.raise 0x16000000#32 .locked)) ∧
    (s.fc.locked = false → exec (.fcSetblackout bw) s =
      .next { s with fc := { s.fc with blackout := bw }, resp := s.resp ++ [[0x00000000#32]] })) ∧
  (∀ (num den : Word) (s : State),
    encode (.fcSetusable num den) = [0x17000000#32, num, den] ∧
    (s.fc.locked = true → exec (.fcSetusable num den) s = .next (s.raise 0x17000000#32 .locked)) ∧
    (s.fc.locked = false → (den = 0 ∨ den.toNat < num.toNat) →
      exec (.fcSetusable num den) s = .next (s.raise 0x17000000#32 .operand)) ∧
    (s.fc.locked = false → den ≠ 0 → num.toNat ≤ den.toNat → exec (.fcSetusable num den) s =
      .next { s with fc := { s.fc with ufNum := num, ufDen := den }, resp := s.resp ++ [[0x00000000#32]] })) ∧
  (∀ (mask : BitVec 16) (s : State),
    encode (.fcListen mask) = [0x19000000#32 ||| mask.setWidth 32] ∧
    (2 ^ s.cfg.nlisten ≤ mask.toNat →
      exec (.fcListen mask) s = .next (s.raise (0x19000000#32 ||| mask.setWidth 32) .operand)) ∧
    (mask.toNat < 2 ^ s.cfg.nlisten → exec (.fcListen mask) s =
      .next { s with fc := { s.fc with listenMask := mask }, resp := s.resp ++ [[0x00000000#32]] }))


/-! ### ALLOC (44_alloc.md) -/

/-- 44_alloc.md R270, R280, R281, R285, 10_state.md R33, 41_cic.md R165: the checks of `ALLOC.GETSOURCE` in their order,
the first that fails answered and nothing written. The half window is half the usable bandwidth, rounded down twice; the
proposed set has the channel behind those of no higher frequency; the last two checks are an unsupported ratio, and a
cache miss whose design fails. -/
def Obligations.AllocGetsourceChecksInOrder : Prop :=
  ∀ (r : BitVec 16) (freq : BitVec 64) (bw pass stop : Word) (s : State),
    let i := Instr.allocGetsource r freq bw pass stop
    let h := 0x20000000#32 ||| r.setWidth 32
    encode i = [h, freq.extractLsb' 0 32, freq.extractLsb' 32 32, bw, pass, stop] ∧
    (s.fc.rate = 0 → exec i s = .next (s.raise h .notcfg)) ∧
    (s.fc.rate ≠ 0 →
      ((freq.toInt < 0 ∨ 2 ^ 62 - 1 < freq.toInt) → exec i s = .next (s.raise h .operand)) ∧
      (0 ≤ freq.toInt → freq.toInt ≤ 2 ^ 62 - 1 →
        ((∃ c ∈ s.active, c.freq = freq) → exec i s = .next (s.raise h .duplicate)) ∧
        ((∀ c ∈ s.active, c.freq ≠ freq) →
          ((∀ k < s.cfg.nsrc, (s.slot k).live = true) → exec i s = .next (s.raise h .full)) ∧
          (∀ k < s.cfg.nsrc, (s.slot k).live = false → (∀ j < k, (s.slot j).live = true) →
            let half : Int := (s.fc.rate.toNat * s.fc.ufNum.toNat / s.fc.ufDen.toNat / 2 : Nat)
            let notAbove := fun ch : Channel => decide (ch.freq.toInt ≤ freq.toInt)
            let proposed := s.active.takeWhile notAbove ++ ⟨freq, bw, BitVec.ofNat 8 k⟩ :: s.active.dropWhile notAbove
            (place half s.fc.blackout.toNat proposed = none → exec i s = .next (s.raise h .infeasible)) ∧
            (∀ c, place half s.fc.blackout.toNat proposed = some c →
              let tuned := resolve s.cfg c s.fc.ppm.toInt
              ((s.fc.freqValid = false ∨ c ≠ s.fc.freq.toInt) →
                (tuned < s.fc.min.toInt ∨ s.fc.max.toInt < tuned) → exec i s = .next (s.raise h .range)) ∧
              (((s.fc.freqValid = true ∧ c = s.fc.freq.toInt) ∨
                  (s.fc.min.toInt ≤ tuned ∧ tuned ≤ s.fc.max.toInt)) →
                (supported r.toNat = none → exec i s = .next (s.raise h .ratio)) ∧
                (supported r.toNat ≠ none →
                  (s.cache.find? fun e => e.num.toNat * r.toNat = s.fc.rate.toNat * e.den.toNat) = none →
                  design s.cfg.tapsMax s.fc.rate r pass stop = none → exec i s = .next (s.raise h .filter))))))))

/-- 44_alloc.md R270, R280, R283, R284, 10_state.md R33, 41_cic.md R164, R165: when every check passes, the channel is in the set, the controller is
locked, a cached design of the output rate is taken or a new one is cached while there is room, the lowest free slot
holds a new source with every other register at its reset value, and the tuner is retuned through the privileged setter
when the center moved. The answer is the slot. -/
def Obligations.AllocGetsourceCommits : Prop :=
  ∀ (r : BitVec 16) (freq : BitVec 64) (bw pass stop : Word) (s : State) (k : Nat) (c : Int)
    (fs : List Nat) (hit : Option CacheEntry) (taps : List F32) (cache : List CacheEntry),
    let half : Int := (s.fc.rate.toNat * s.fc.ufNum.toNat / s.fc.ufDen.toNat / 2 : Nat)
    let notAbove := fun ch : Channel => decide (ch.freq.toInt ≤ freq.toInt)
    let proposed := s.active.takeWhile notAbove ++ ⟨freq, bw, BitVec.ofNat 8 k⟩ :: s.active.dropWhile notAbove
    s.fc.rate ≠ 0 → 0 ≤ freq.toInt → freq.toInt ≤ 2 ^ 62 - 1 → (∀ ch ∈ s.active, ch.freq ≠ freq) →
    k < s.cfg.nsrc → (s.slot k).live = false → (∀ j < k, (s.slot j).live = true) →
    place half s.fc.blackout.toNat proposed = some c →
    ((s.fc.freqValid = true ∧ c = s.fc.freq.toInt) ∨
      (s.fc.min.toInt ≤ resolve s.cfg c s.fc.ppm.toInt ∧ resolve s.cfg c s.fc.ppm.toInt ≤ s.fc.max.toInt)) →
    supported r.toNat = some fs →
    (s.cache.find? fun e => e.num.toNat * r.toNat = s.fc.rate.toNat * e.den.toNat) = hit →
    ((hit.map (·.taps) = some taps ∧ cache = s.cache) ∨
      (hit = none ∧ design s.cfg.tapsMax s.fc.rate r pass stop = some taps ∧
        cache = if s.cache.length < s.cfg.cacheCap then s.cache ++ [⟨s.fc.rate, r, taps⟩] else s.cache)) →
    let t : State := { s with
      active := proposed
      fc := { s.fc with locked := true }
      cache := cache
      slots := s.slots.set k
        { src := { state := .idle, chFreq := freq, chBw := bw, corr := 0, consumer := false, tapen := false, q := [],
                   ovf := false, ovfCount := 0 }
          mix := { phase := 0, inc := mixInc (c - freq.toInt) s.fc.rate, cfgd := true }
          cic := cicInit s.cfg s.fc.rate r pass stop fs taps
          psk := Psk.reset } }
    exec (.allocGetsource r freq bw pass stop) s =
      .next ((if s.fc.freqValid = true ∧ c = s.fc.freq.toInt then t
        else t.freqCommit c (resolve s.cfg c s.fc.ppm.toInt)).answering [BitVec.ofNat 32 k])

/-- 44_alloc.md R287, R289. Releasing a frequency that is no entry's key is a successful no-op. Releasing a channel
removes it, stops its source and empties its queue, unlocks when the set is empty, and touches nothing else. The query
reads the set in its order. -/
def Obligations.AllocReleaseAndQuery : Prop :=
  (∀ (freq : BitVec 64) (s : State),
    encode (.allocRelease freq) = [0x21000000#32, freq.extractLsb' 0 32, freq.extractLsb' 32 32] ∧
    ((∀ c ∈ s.active, c.freq ≠ freq) → exec (.allocRelease freq) s = .next (s.answering [0#32])) ∧
    (s.active.Pairwise (fun a b => a.freq ≠ b.freq) → ∀ e ∈ s.active, e.freq = freq →
      let sl := s.slot e.slot.toNat
      let rest := s.active.filter fun c => c.slot ≠ e.slot
      exec (.allocRelease freq) s =
        .next ({ s with active := rest, fc := { s.fc with locked := if rest = [] then false else s.fc.locked } }.put
          e.slot { sl with src := { sl.src with state := .stopped, q := [] } } [1#32]))) ∧
  (∀ (index : BitVec 16) (s : State),
    encode (.allocQuery index) = [0x22000000#32 ||| index.setWidth 32] ∧
    (∀ c, s.active[index.toNat]? = some c →
      exec (.allocQuery index) s = .next (s.answering
        [BitVec.ofNat 32 s.active.length, c.freq.extractLsb' 0 32, c.freq.extractLsb' 32 32, c.bw,
          BitVec.ofNat 32 c.slot.toNat])) ∧
    (s.active.length ≤ index.toNat →
      exec (.allocQuery index) s =
        .next (s.answering [BitVec.ofNat 32 s.active.length, 0#32, 0#32, 0#32, 0#32])))

/-- 44_alloc.md R271, R272, R275, R276, R277: which center `Place` gives, and so when it answers INFEASIBLE. A single
channel's center is its minimum minus the blackout width plus one, if it fits the window. With two or more, the centers
tried start at the last channel's maximum minus `half`; each next one is one past the blackout width above the maximum of
the first channel, in list order, that overlaps the blackout zone; none may put the first channel below the window; and
`Place` gives the one that no channel overlaps, if every channel fits its window. Where no such row of centers exists it
gives none. That no channel gives no center is the model's choice (log 13): R275 takes a non-empty list. -/
def Obligations.PlacedCenterIsFeasible : Prop :=
  ∀ (half bo c : Int) (chs : List Channel),
    let low := fun ch : Channel => ch.freq.toInt - (ch.bw.toNat / 2 : Nat)
    let high := fun ch : Channel => ch.freq.toInt + (ch.bw.toNat / 2 : Nat)
    let window := fun d : Int => ∀ ch ∈ chs, d - half ≤ low ch ∧ high ch ≤ d + half
    let overlap := fun (ch : Channel) (d : Int) => low ch ≤ d + bo ∧ d - bo ≤ high ch
    let shift := fun d d' : Int => ∃ before ch after, chs = before ++ ch :: after ∧ (∀ b ∈ before, ¬ overlap b d) ∧
      overlap ch d ∧ d' = high ch + bo + 1
    (chs = [] → place half bo chs = none) ∧
    (∀ ch, chs = [ch] → (place half bo chs = some c ↔ c = low ch - bo + 1 ∧ window c)) ∧
    (∀ first inner last, chs = first :: inner ++ [last] →
      (place half bo chs = some c ↔
        ∃ tried : List Int, tried.head? = some (high last - half) ∧ tried.IsChain shift ∧ tried.getLast? = some c ∧
          (∀ d ∈ tried, d - half ≤ low first) ∧ (∀ ch ∈ chs, ¬ overlap ch c) ∧ window c))

/-- 44_alloc.md R277: `n` restarts are always enough for `n` channels: the iteration bound never decides, from whatever
center the scan starts. -/
def Obligations.PlacementNeverExhaustsItsBound : Prop :=
  ∀ (half bo floor c : Int) (chs : List Channel) (more : Nat),
    placeScan half bo floor chs (chs.length + more) c = placeScan half bo floor chs chs.length c

/-! ### SRC (45_src.md) -/

/-- 45_src.md R304, R305, R300: the lifecycle commands, their refusals, and the release of a stopped source's channel. -/
def Obligations.SrcStartAndStop : Prop :=
  ∀ (k : BitVec 8) (s : State),
    encode (.srcStart k) = [0x30000000#32 ||| slotBits k] ∧ encode (.srcStop k) = [0x31000000#32 ||| slotBits k] ∧
    (k.toNat < s.cfg.nsrc →
      let sl := s.slot k.toNat
      let rest := s.active.filter fun c => c.slot ≠ k
      (sl.src.state = .stopped →
        exec (.srcStart k) s = .next (s.raise (0x30000000#32 ||| slotBits k) .stopped) ∧
        exec (.srcStop k) s = .next (s.raise (0x31000000#32 ||| slotBits k) .stopped)) ∧
      (sl.src.state = .free →
        exec (.srcStart k) s = .next (s.raise (0x30000000#32 ||| slotBits k) .state) ∧
        exec (.srcStop k) s = .next (s.raise (0x31000000#32 ||| slotBits k) .state)) ∧
      (sl.src.state = .running →
        exec (.srcStart k) s = .next (s.raise (0x30000000#32 ||| slotBits k) .state)) ∧
      (sl.src.state = .idle →
        exec (.srcStart k) s = .next (s.put k { sl with src := { sl.src with state := .running } } [])) ∧
      ((sl.src.state = .idle ∨ sl.src.state = .running) →
        exec (.srcStop k) s =
          .next ({ s with
              active := rest
              fc := { s.fc with locked := if rest = [] then false else s.fc.locked } }.put
            k { sl with src := { sl.src with state := .stopped, q := [] } } [])))

/-- 45_src.md R305: `SRC.STOP s` and `ALLOC.RELEASE` of the slot's channel have the same effect on the state. -/
def Obligations.StopIsReleaseOfItsChannel : Prop :=
  ∀ (s : State) (e : Channel), AllocOk s → e ∈ s.active →
    (after (.srcStop e.slot) s).withoutResponses = (after (.allocRelease e.freq) s).withoutResponses

/-- 45_src.md R307: a buffer of legal length goes into the queue of every RUNNING slot and of no other; a full queue
loses its oldest buffer first, which is counted, flagged, and warned of when the flag was clear. -/
def Obligations.SrcFeedCopiesToRunningSlots : Prop :=
  ∀ (x : List C32) (s : State),
    let full := fun sl : Slot => decide (sl.src.state = .running ∧ sl.src.q.length = s.cfg.qcap)
    encode (.srcFeed x) = (0x33000000#32 ||| BitVec.ofNat 32 (x.length % 65536)) :: x.flatMap (fun z => [z.i, z.q]) ∧
    ((x = [] ∨ s.cfg.bufMax < x.length) →
      exec (.srcFeed x) s = .next (s.raise (0x33000000#32 ||| BitVec.ofNat 32 (x.length % 65536)) .operand)) ∧
    (x ≠ [] → x.length ≤ s.cfg.bufMax →
      exec (.srcFeed x) s = .next ({ s with
        slots := s.slots.map fun (sl : Slot) =>
          if sl.src.state = SrcState.running then
            { sl with src := { sl.src with
                q := (if sl.src.q.length = s.cfg.qcap then sl.src.q.tail else sl.src.q) ++ [x]
                ovf := sl.src.ovf || full sl
                ovfCount :=
                  if full sl = true ∧ sl.src.ovfCount.toNat < 2 ^ 32 - 1 then sl.src.ovfCount + 1#32
                  else sl.src.ovfCount } }
          else sl
        ports := { s.ports with
          warn := s.ports.warn ++
            ((List.range s.slots.length).filter fun k => full (s.slot k) && !(s.slot k).src.ovf).map
              (BitVec.ofNat 8) } }.answering
        [BitVec.ofNat 32 (s.slots.countP fun (sl : Slot) => sl.src.state = SrcState.running), BitVec.ofNat 32 (s.slots.countP full)]))

/-- 45_src.md R309, R310, 40_mix.md R131, R135, 42_psk.md R216: a drain takes at most `DRAIN_CAP` buffers, oldest first,
and takes their samples one after another: times the oscillator's sample, the phase advanced; through the decimator; and,
when that completes a block, counted, through the loop sample by sample with its symbols and snapshots emitted when the
PSK unit is configured, else to the consumer as a block. It needs a RUNNING slot. (`cicRun` is said in
DecimatorPathFollowsThePseudocode, `pskRun` in PskStepFollowsThePseudocode.) -/
def Obligations.SrcDrainRunsItsBuffers : Prop :=
  ∀ (k : BitVec 8) (s : State),
    let symbols := fun (w : Work) (z : C32) =>
      let e := pskRun s.cfg.elOffset w.sl.psk z
      { w with
        sl := { w.sl with psk := e.1 }
        nsym := w.nsym + (if e.2.isSome then 1 else 0)
        out := w.out ++ (if w.sl.src.consumer then e.2.toList.map fun v => OutItem.symbol v.z else [])
        tap := w.tap ++ (if w.sl.src.tapen then e.2.toList.map SymbolEvent.snap else []) }
    let block := fun (w : Work) (b : List C32) =>
      if w.sl.psk.cfgd then b.foldl symbols { w with nblk := w.nblk + 1 }
      else { w with nblk := w.nblk + 1, out := w.out ++ (if w.sl.src.consumer then [OutItem.block b] else []) }
    let sample := fun (w : Work) (x : C32) =>
      let m := w.sl.mix
      let c := locos m.phase
      let d := losin m.phase
      let p := cicRun s.cfg w.sl.cic ⟨fsub (fmul x.i c) (fmul x.q d), fadd (fmul x.i d) (fmul x.q c)⟩
      p.blk.toList.foldl block
        { w with sl := { w.sl with mix := { m with phase := m.phase + m.inc }, cic := p.cic } }
    encode (.srcDrain k) = [0x32000000#32 ||| slotBits k] ∧
    (k.toNat < s.cfg.nsrc →
      let sl := s.slot k.toNat
      let w := (sl.src.q.take s.cfg.drainCap).flatten.foldl sample
        { sl := { sl with src := { sl.src with q := sl.src.q.drop s.cfg.drainCap } }, out := [], tap := []
          nout := 0, nblk := 0, nsym := 0 }
      (sl.src.state = .stopped → exec (.srcDrain k) s = .next (s.raise (0x32000000#32 ||| slotBits k) .stopped)) ∧
      ((sl.src.state = .free ∨ sl.src.state = .idle) →
        exec (.srcDrain k) s = .next (s.raise (0x32000000#32 ||| slotBits k) .state)) ∧
      (sl.src.state = .running →
        exec (.srcDrain k) s = .next ({ s with
          ports := { s.ports with
            out := s.ports.out.modify k.toNat (· ++ w.out)
            tap := s.ports.tap.modify k.toNat (· ++ w.tap) } }.put k w.sl
          [BitVec.ofNat 32 (min s.cfg.drainCap sl.src.q.length), BitVec.ofNat 32 w.nblk, BitVec.ofNat 32 w.nsym])))

/-- 45_src.md R315: for two slots, `SRC.DRAIN s` and `SRC.DRAIN s'` commute, on the registers and on every port. -/
def Obligations.DrainsOfTwoSlotsCommute : Prop :=
  ∀ (k k' : BitVec 8) (s : State), k ≠ k' → k.toNat < s.cfg.nsrc → k'.toNat < s.cfg.nsrc →
    (s.slot k.toNat).src.state = .running → (s.slot k'.toNat).src.state = .running →
    (after (.srcDrain k') (after (.srcDrain k) s)).withoutResponses =
      (after (.srcDrain k) (after (.srcDrain k') s)).withoutResponses

/-- 20_memory.md R83, 45_src.md R316: a queue is first in, first out. Whatever the command, what it leaves in a queue is
what the queue held with some of its oldest buffers gone, and behind it at most the buffer of a feed. -/
def Obligations.QueuesAreFirstInFirstOut : Prop :=
  ∀ (i : Instr) (s t : State), exec i s = .next t → ∀ k, ∃ (gone : Nat) (new : List (List C32)),
    (t.slot k).src.q = (s.slot k).src.q.drop gone ++ new ∧ (new = [] ∨ ∃ x, i = .srcFeed x ∧ new = [x])

/-- 45_src.md R311, R312, R313. -/
def Obligations.SrcStatusAttachSetcorr : Prop :=
  ∀ (k : BitVec 8) (consumer tap : Bool) (corr : Word) (s : State),
    encode (.srcStatus k) = [0x34000000#32 ||| slotBits k] ∧
    encode (.srcAttach k consumer tap) =
      [0x35000000#32 ||| slotBits k ||| (if consumer then 1#32 else 0#32) ||| (if tap then 2#32 else 0#32)] ∧
    encode (.srcSetcorr k corr) = [0x36000000#32 ||| slotBits k, corr] ∧
    (k.toNat < s.cfg.nsrc →
      let sl := s.slot k.toNat
      exec (.srcStatus k) s = .next (s.put k { sl with src := { sl.src with ovf := false } }
        [BitVec.ofNat 32
            ((if sl.src.state = .idle then 1 else if sl.src.state = .running then 2
                else if sl.src.state = .stopped then 3 else 0) +
              (if sl.src.ovf then 4 else 0) + (if sl.src.consumer then 8 else 0) + (if sl.src.tapen then 16 else 0) +
              (if sl.mix.cfgd then 32 else 0) + (if sl.cic.cfgd then 64 else 0) + (if sl.psk.cfgd then 128 else 0)),
          BitVec.ofNat 32 sl.src.q.length, sl.src.ovfCount]) ∧
      exec (.srcAttach k consumer tap) s =
        .next (s.put k { sl with src := { sl.src with consumer := consumer, tapen := tap } } []) ∧
      (sl.src.state = .stopped →
        exec (.srcSetcorr k corr) s = .next (s.raise (0x36000000#32 ||| slotBits k) .stopped)) ∧
      (sl.src.state = .free →
        exec (.srcSetcorr k corr) s = .next (s.raise (0x36000000#32 ||| slotBits k) .state)) ∧
      ((sl.src.state = .idle ∨ sl.src.state = .running) →
        exec (.srcSetcorr k corr) s = .next (s.put k
          { sl with
            src := { sl.src with corr := corr }
            mix := { sl.mix with
              inc := mixInc (s.fc.freq.toInt - sl.src.chFreq.toInt - corr.toInt) s.fc.rate } } [])))

/-- 10_state.md R40, 41_cic.md R183, 45_src.md R315: a command with a SLOT field leaves every other slot and the ports of
every other slot as they were, and `DEV`, `EVT`, `WARN`; only `SRC.STOP` touches the active set or the controller, and of
the controller the lock alone; only `CIC.CFG` touches the cache. -/
def Obligations.SlotCommandsTouchOneSlot : Prop :=
  ∀ (i : Instr) (k : BitVec 8) (s t : State), slotField i = some k → exec i s = .next t →
    t.slots.length = s.slots.length ∧
    (∀ j, j ≠ k.toNat →
      t.slots[j]? = s.slots[j]? ∧ t.ports.out[j]? = s.ports.out[j]? ∧ t.ports.tap[j]? = s.ports.tap[j]?) ∧
    t.ports.dev = s.ports.dev ∧ t.ports.evt = s.ports.evt ∧ t.ports.warn = s.ports.warn ∧
    t.fc = { s.fc with locked := t.fc.locked } ∧
    (i ≠ .srcStop k → t.fc = s.fc ∧ t.active = s.active) ∧
    ((∀ r rate pass stop, i ≠ .cicCfg k r rate pass stop) → t.cache = s.cache)

/-! ### MIX (40_mix.md) -/

/-- 40_mix.md R130, R131, R132, R134, R135, R136, R17 of 00_scope.md. -/
def Obligations.MixCommandsAnswer : Prop :=
  ∀ (k : BitVec 8) (f : BitVec 64) (rate : Word) (x : C32) (s : State),
    encode (.mixSetfreq k f rate) = [0x40000000#32 ||| slotBits k, f.extractLsb' 0 32, f.extractLsb' 32 32, rate] ∧
    encode (.mixNext k) = [0x41000000#32 ||| slotBits k] ∧
    encode (.mixStep k x) = [0x42000000#32 ||| slotBits k, x.i, x.q] ∧
    encode (.mixGetstate k) = [0x43000000#32 ||| slotBits k] ∧
    (k.toNat < s.cfg.nsrc →
      exec (.mixGetstate k) s = .next (s.answering
        [(s.slot k.toNat).mix.phase, (s.slot k.toNat).mix.inc, if (s.slot k.toNat).mix.cfgd then 1#32 else 0#32])) ∧
    (Standalone s k →
      let sl := s.slot k.toNat
      let next : Mix := { sl.mix with phase := sl.mix.phase + sl.mix.inc }
      let c := locos sl.mix.phase
      let d := losin sl.mix.phase
      ((rate = 0 ∨ f.toInt < -(2 ^ 62 - 1) ∨ 2 ^ 62 - 1 < f.toInt) →
        exec (.mixSetfreq k f rate) s = .next (s.raise (0x40000000#32 ||| slotBits k) .operand)) ∧
      (rate ≠ 0 → -(2 ^ 62 - 1) ≤ f.toInt → f.toInt ≤ 2 ^ 62 - 1 →
        exec (.mixSetfreq k f rate) s =
          .next (s.put k { sl with mix := { sl.mix with inc := mixInc f.toInt rate, cfgd := true } } [])) ∧
      (sl.mix.cfgd = false →
        exec (.mixNext k) s = .next (s.raise (0x41000000#32 ||| slotBits k) .notcfg) ∧
        exec (.mixStep k x) s = .next (s.raise (0x42000000#32 ||| slotBits k) .notcfg)) ∧
      (sl.mix.cfgd = true →
        exec (.mixNext k) s = .next (s.put k { sl with mix := next } [c, d]) ∧
        exec (.mixStep k x) s = .next (s.put k { sl with mix := next }
          [fsub (fmul x.i c) (fmul x.q d), fadd (fmul x.i d) (fmul x.q c)])))

/-- 40_mix.md R138: after `n` steps from phase `p0` the phase is exactly `p0 + n·INC` modulo 2^32, whatever the samples;
the increment stays. -/
def Obligations.OscillatorPhaseIsExact : Prop :=
  ∀ (k : BitVec 8) (s : State), Standalone s k → k.toNat < s.slots.length → (s.slot k.toNat).mix.cfgd = true →
    (∀ n : Nat, ((afterAll (List.replicate n (.mixNext k)) s).slot k.toNat).mix =
      { (s.slot k.toNat).mix with
        phase := (s.slot k.toNat).mix.phase + BitVec.ofNat 32 n * (s.slot k.toNat).mix.inc }) ∧
    (∀ xs : List C32, ((afterAll (xs.map (.mixStep k)) s).slot k.toNat).mix =
      { (s.slot k.toNat).mix with
        phase := (s.slot k.toNat).mix.phase + BitVec.ofNat 32 xs.length * (s.slot k.toNat).mix.inc })

/-- 00_scope.md R15, R16, 41_cic.md R163: what the spec requires of the build's open functions holds of them, whatever
they are elsewhere. -/
def Obligations.OpenFunctionsKeepTheirRequirements : Prop :=
  (fcos 0x00000000#32 = fONE ∧ fcos 0x80000000#32 = fONE ∧
    fsin 0x00000000#32 = 0x00000000#32 ∧ fsin 0x80000000#32 = 0x80000000#32) ∧
  (∀ a : F32, isFinite a = true →
    isFinite (fcos a) = true ∧ fle (fabs (fcos a)) fONE = true ∧
    isFinite (fsin a) = true ∧ fle (fabs (fsin a)) fONE = true) ∧
  (∀ a : F32, isFinite a = false → isNaN (fcos a) = true ∧ isNaN (fsin a) = true) ∧
  (locos 0#32 = fONE ∧ losin 0#32 = fZERO ∧ locos 0x40000000#32 = fZERO ∧ losin 0x40000000#32 = fONE ∧
    locos 0x80000000#32 = fMONE ∧ losin 0x80000000#32 = fZERO ∧ locos 0xC0000000#32 = fZERO ∧
    losin 0xC0000000#32 = fMONE) ∧
  (∀ p : Word, isFinite (locos p) = true ∧ fle (fabs (locos p)) fONE = true ∧
    isFinite (losin p) = true ∧ fle (fabs (losin p)) fONE = true) ∧
  (∀ (tapsMax : Nat) (rate : Word) (r : BitVec 16) (pass stop : Word),
    (stop.toNat ≤ pass.toNat → design tapsMax rate r pass stop = none) ∧
    (rate.toNat < 2 * stop.toNat * r.toNat → design tapsMax rate r pass stop = none) ∧
    (design tapsMax rate r pass stop).elim True fun taps =>
      1 ≤ taps.length ∧ taps.length ≤ tapsMax ∧ ∀ v ∈ taps, isFinite v = true)

/-! ### CIC (41_cic.md) -/

/-- 41_cic.md R150, R155, R160, R164, R165, R166, R167, R173, R174, R176: the checks of `CIC.CFG` in their order, what a
constructed unit holds and how the cache changes; a push; the read-out. (`cicRun`, the path of the pushed sample, is said
in DecimatorPathFollowsThePseudocode.) -/
def Obligations.CicCommandsAnswer : Prop :=
  ∀ (k : BitVec 8) (r : BitVec 16) (rate pass stop : Word) (x : C32) (n : BitVec 16) (s : State),
    let sl := s.slot k.toNat
    let h := 0x50000000#32 ||| slotBits k ||| r.setWidth 32
    let hit := s.cache.find? fun e => e.num.toNat * r.toNat = rate.toNat * e.den.toNat
    let unit := fun (fs : List Nat) (taps : List F32) => ({
      cfgd := true, inRate := rate, r := r, pass := pass, stop := stop
      ds := fs.map fun f => {
        fact := BitVec.ofNat 16 f, dcnt := 0
        st := (let g := fdiv fONE (i2f f)
          List.replicate (s.cfg.cicOrder - 1) g ++
            [if s.cfg.cicOrder = 1 then g else fmul g (fdiv fONE (fsub fONE g))]).map fun g =>
              { buf := List.replicate (f - 1) C32.zero, idx := 0, sum := C32.zero, gain := g } }
      taps := taps, x := List.replicate taps.length C32.zero
      blk := List.replicate s.cfg.outBlock C32.zero, blkn := 0 } : Cic)
    encode (.cicCfg k r rate pass stop) = [h, rate, pass, stop] ∧
    encode (.cicPush k x) = [0x51000000#32 ||| slotBits k, x.i, x.q] ∧
    encode (.cicGetcfg k n) = [0x53000000#32 ||| slotBits k ||| n.setWidth 32] ∧
    (k.toNat < s.cfg.nsrc → exec (.cicGetcfg k n) s = .next (s.answering
      [if sl.cic.cfgd then 1#32 else 0#32, BitVec.ofNat 32 sl.cic.ds.length,
        ((sl.cic.ds.map fun d => d.fact.setWidth 32).getD n.toNat 0#32),
        if sl.cic.cfgd then BitVec.ofNat 32 sl.cic.taps.length else 0#32, BitVec.ofNat 32 sl.cic.blkn])) ∧
    (Standalone s k →
      (rate = 0 → exec (.cicCfg k r rate pass stop) s = .next (s.raise h .operand)) ∧
      (rate ≠ 0 → supported r.toNat = none → exec (.cicCfg k r rate pass stop) s = .next (s.raise h .ratio)) ∧
      (∀ fs e, rate ≠ 0 → supported r.toNat = some fs → hit = some e →
        exec (.cicCfg k r rate pass stop) s = .next (s.put k { sl with cic := unit fs e.taps } [])) ∧
      (∀ fs, rate ≠ 0 → supported r.toNat = some fs → hit = none →
        exec (.cicCfg k r rate pass stop) s =
          (design s.cfg.tapsMax rate r pass stop).elim (.next (s.raise h .filter)) fun taps =>
            .next ({ s with
                cache :=
                  if s.cache.length < s.cfg.cacheCap then s.cache ++ [CacheEntry.mk rate r taps] else s.cache }.put
              k { sl with cic := unit fs taps } [])) ∧
      (sl.cic.cfgd = false →
        exec (.cicPush k x) s = .next (s.raise (0x51000000#32 ||| slotBits k) .notcfg)) ∧
      (sl.cic.cfgd = true →
        let p := cicRun s.cfg sl.cic x
        exec (.cicPush k x) s = .next ({ s with
            ports := { s.ports with
              out := s.ports.out.modify k.toNat
                (· ++ if sl.src.consumer then p.blk.toList.map OutItem.block else []) } }.put k { sl with cic := p.cic }
          [BitVec.ofNat 32 p.nout, if p.blk.isSome then 1#32 else 0#32])))

/-- 41_cic.md R175: `CIC.PUSHBLK` is the pushes of its samples in order, as one command whose results are the sums; an
empty block is legal; it has the checks of a push. -/
def Obligations.CicPushblkIsItsPushes : Prop :=
  ∀ (k : BitVec 8) (xs : List C32) (s : State),
    encode (.cicPushblk k xs) =
      (0x52000000#32 ||| slotBits k ||| BitVec.ofNat 32 (xs.length % 65536)) ::
        xs.flatMap (fun z => [z.i, z.q]) ∧
    (Standalone s k → (s.slot k.toNat).cic.cfgd = false →
      exec (.cicPushblk k xs) s =
        .next (s.raise (0x52000000#32 ||| slotBits k ||| BitVec.ofNat 32 (xs.length % 65536)) .notcfg)) ∧
    (Standalone s k → k.toNat < s.slots.length → (s.slot k.toNat).cic.cfgd = true →
      let t := afterAll (xs.map (.cicPush k)) s
      exec (.cicPushblk k xs) s = .next ({ t with resp := s.resp }.answering
        [BitVec.ofNat 32 (sumOfResults s t 1), BitVec.ofNat 32 (sumOfResults s t 2)]))

/-- 41_cic.md R151: the prime table is the ascending list of all primes from 2 to 2801, 408 of them. -/
def Obligations.PrimeTableHoldsThePrimes : Prop :=
  (∀ p : Nat, p ∈ primeTable ↔ Nat.Prime p ∧ p ≤ 2801) ∧ primeTable.Pairwise (· < ·) ∧ primeTable.length = 408

/-- 41_cic.md R152, R153: every ratio from 1 to 2801 is supported, its factors are primes in ascending order and their
product is the ratio; no other ratio is supported. -/
def Obligations.EverySupportedRatioFactors : Prop :=
  (∀ r : Nat, 1 ≤ r → r ≤ 2801 → ∃ fs, supported r = some fs ∧ fs.prod = r ∧ (∀ f ∈ fs, Nat.Prime f) ∧
    fs.Pairwise (· ≤ ·)) ∧
  (∀ r : Nat, r = 0 ∨ 2801 < r → supported r = none)

/-- 41_cic.md R180: of the first `n` samples pushed into a newly constructed decimator exactly `n div R` reach the output
stage, and a block is completed with every `R·OUT_BLOCK` of them, for every legal build. -/
def Obligations.DecimatorKeepsEveryRthSample : Prop :=
  ∀ (k : BitVec 8) (r : BitVec 16) (rate pass stop : Word) (fs : List Nat) (taps : List F32) (xs : List C32)
    (s : State), s.cfg.Legal → Standalone s k → supported r.toNat = some fs →
    (s.slot k.toNat).cic = cicInit s.cfg rate r pass stop fs taps →
    ∃ t, exec (.cicPushblk k xs) s = .next t ∧
      t.resp = s.resp ++ [[0x00000200#32, BitVec.ofNat 32 (xs.length / r.toNat),
        BitVec.ofNat 32 (xs.length / (r.toNat * s.cfg.outBlock))]]

/-- 41_cic.md R158, R159, R182. A Stage of a factor of at least 3 keeps its last `f − 1` inputs in a circle and runs one
addition, one product and one subtraction a rail; a running sum that is a NaN, or meets one, stays a NaN. A Stage of
factor 2 averages the input with the previous one, which is all it keeps. -/
def Obligations.StageIsMovingSumOfItsHistory : Prop :=
  (∀ (f : Nat) (st : Stage) (x oldest : C32) (rest : List C32), 3 ≤ f → StageOk f st →
    st.history = oldest :: rest →
    let t : C32 := ⟨fadd st.sum.i x.i, fadd st.sum.q x.q⟩
    let st' := (stageStep f st x).1
    let y := (stageStep f st x).2
    y = ⟨fmul t.i st.gain, fmul t.q st.gain⟩ ∧ st'.sum = ⟨fsub t.i oldest.i, fsub t.q oldest.q⟩ ∧
    st'.history = rest ++ [x] ∧ st'.gain = st.gain ∧ StageOk f st' ∧
    ((isNaN st.sum.i = true ∨ isNaN x.i = true) → isNaN y.i = true ∧ isNaN st'.sum.i = true) ∧
    ((isNaN st.sum.q = true ∨ isNaN x.q = true) → isNaN y.q = true ∧ isNaN st'.sum.q = true)) ∧
  (∀ (st : Stage) (x prev : C32), st.buf = [prev] →
    stageStep 2 st x =
      ({ buf := [x], idx := 0, sum := x, gain := st.gain },
        ⟨fmul (fadd prev.i x.i) st.gain, fmul (fadd prev.q x.q) st.gain⟩))

/-- 41_cic.md R168, R169: the cleanup filter is the direct form over the newest samples, summed from +0.0 in ascending tap
index; the output stage fills its block one sample after another and gives a copy of it when it is full. -/
def Obligations.OutputStageFiltersAndFillsBlocks : Prop :=
  (∀ (u : Cic) (y : C32), u.x.length = u.taps.length →
    (firStep u y).1 = { u with x := (y :: u.x).take u.x.length } ∧
    (firStep u y).2 = (List.range u.taps.length).foldl
      (fun (acc : C32) n =>
        let t := u.taps.getD n fZERO
        let z := (y :: u.x).getD n C32.zero
        (⟨fadd acc.i (fmul t z.i), fadd acc.q (fmul t z.q)⟩ : C32)) C32.zero) ∧
  (∀ (n : Nat) (u : Cic) (z : C32),
    (u.blkn + 1 ≠ n → blockPut n u z = ({ u with blk := u.blk.set u.blkn z, blkn := u.blkn + 1 }, none)) ∧
    (u.blkn + 1 = n →
      blockPut n u z = ({ u with blk := u.blk.set u.blkn z, blkn := 0 }, some (u.blk.set u.blkn z))))

/-- 41_cic.md R161, R162, R173: the path of one sample through the decimator. In a Decimating Stage every Stage runs, in
order, each on the output of the one before; then the counter advances, and the `f`-th sample is kept and the counter
starts again. The Decimating Stages run in order, each on the sample the one before kept; behind the first that drops,
nothing changes. A sample that all keep goes through the filter and into the block. -/
def Obligations.DecimatorPathFollowsThePseudocode : Prop :=
  (∀ (d : DecStage) (x : C32), ∃ (ys : List C32) (sts : List Stage) (y : C32),
    ys.length = d.st.length + 1 ∧ ys[0]? = some x ∧ ys[d.st.length]? = some y ∧ sts.length = d.st.length ∧
    (∀ (j : Nat) (st : Stage) (u : C32), d.st[j]? = some st → ys[j]? = some u →
      sts[j]? = some (stageStep d.fact.toNat st u).1 ∧ ys[j + 1]? = some (stageStep d.fact.toNat st u).2) ∧
    (d.dcnt + 1 = d.fact.toNat → decStageStep d x = ({ fact := d.fact, st := sts, dcnt := 0 }, some y)) ∧
    (d.dcnt + 1 ≠ d.fact.toNat → decStageStep d x = ({ fact := d.fact, st := sts, dcnt := d.dcnt + 1 }, none))) ∧
  (∀ (c : Config) (u : Cic) (x : C32), ∃ (m : Nat) (ys : List C32) (ds : List DecStage),
    m ≤ u.ds.length ∧ ys.length = m + 1 ∧ ys[0]? = some x ∧ ds.length = u.ds.length ∧
    (∀ (k : Nat) (d : DecStage) (y : C32), k < m → u.ds[k]? = some d → ys[k]? = some y →
      ds[k]? = some (decStageStep d y).1 ∧ (decStageStep d y).2 = ys[k + 1]?) ∧
    (∀ (d : DecStage) (y : C32), u.ds[m]? = some d → ys[m]? = some y →
      ds[m]? = some (decStageStep d y).1 ∧ (decStageStep d y).2 = none) ∧
    (∀ k : Nat, m < k → ds[k]? = u.ds[k]?) ∧
    (m < u.ds.length → cicRun c u x = { cic := { u with ds := ds }, nout := 0, blk := none }) ∧
    (∀ y : C32, m = u.ds.length → ys[m]? = some y →
      let z := firStep { u with ds := ds } y
      let b := blockPut c.outBlock z.1 z.2
      cicRun c u x = { cic := b.1, nout := 1, blk := b.2 }))

/-- 10_state.md R37, 20_memory.md R94: no command but `SYS.RESET` removes or changes an entry of the tap cache; an entry
is added only by a construction at an output rate the cache does not hold, with legal taps. -/
def Obligations.CacheIsEvictionFree : Prop :=
  ∀ (i : Instr) (s t : State), i ≠ .sysReset → exec i s = .next t →
    t.cache = s.cache ∨
    ∃ e, t.cache = s.cache ++ [e] ∧ legalTaps s.cfg.tapsMax e.taps = true ∧
      ∀ e' ∈ s.cache, e'.num.toNat * e.den.toNat ≠ e.num.toNat * e'.den.toNat

/-! ### PSK (42_psk.md) -/

/-- 42_psk.md R190, R191, R192, R219, R221: the operand tests of `PSK.CFG` and the loop it starts, a step, the read-out. -/
def Obligations.PskCommandsAnswer : Prop :=
  ∀ (k sps : BitVec 8) (ted : Bool) (alpha beta fmax gainmu gainomega : F32) (x : C32) (s : State),
    let sl := s.slot k.toNat
    let h := 0x60000000#32 ||| slotBits k ||| (if ted then 0x100#32 else 0#32) ||| sps.setWidth 32
    let ok := 4 ≤ sps.toNat ∧ sps.toNat ≤ 127 ∧ (s.cfg.elOffset : Int) ≤ (sps.toNat / 2 : Nat) - 1 ∧
      (fle fZERO alpha = true ∧ fle alpha fONE = true) ∧ (fle fZERO beta = true ∧ fle beta fONE = true) ∧
      (fle fZERO fmax = true ∧ fle fmax fPI = true) ∧ (fle fZERO gainmu = true ∧ fle gainmu fONE = true) ∧
      (fle fZERO gainomega = true ∧ fle gainomega fONE = true)
    let nom := i2f sps.toNat
    encode (.pskCfg k sps ted alpha beta fmax gainmu gainomega) = [h, alpha, beta, fmax, gainmu, gainomega] ∧
    encode (.pskStep k x) = [0x61000000#32 ||| slotBits k, x.i, x.q] ∧
    encode (.pskGetstate k) = [0x63000000#32 ||| slotBits k] ∧
    (k.toNat < s.cfg.nsrc →
      exec (.pskGetstate k) s = .next (s.answering
        [sl.psk.lphase, sl.psk.lfreq, sl.psk.mu, sl.psk.omega, BitVec.ofNat 32 sl.psk.skip.toNat, sl.psk.prev.i,
          sl.psk.prev.q]) ∧
      (sl.src.state = .running →
        exec (.pskCfg k sps ted alpha beta fmax gainmu gainomega) s = .next (s.raise h .state)) ∧
      (sl.src.state ≠ .running → ¬ ok →
        exec (.pskCfg k sps ted alpha beta fmax gainmu gainomega) s = .next (s.raise h .operand)) ∧
      (sl.src.state ≠ .running → ok →
        exec (.pskCfg k sps ted alpha beta fmax gainmu gainomega) s = .next (s.put k { sl with psk := {
          cfgd := true, alpha := alpha, beta := beta, fmax := fmax, lphase := 0#32, lfreq := 0#32, sps := sps,
          ted := ted, gainMu := gainmu, gainOmega := gainomega, mu := 0#32, omega := nom,
          omegaMin := fsub nom (fmul nom fK005), omegaMax := fadd nom (fmul nom fK005),
          skip := BitVec.ofNat 16 (2 * sps.toNat), prev := C32.zero,
          dl := List.replicate (2 * sps.toNat) C32.zero } } []))) ∧
    (Standalone s k →
      (sl.psk.cfgd = false → exec (.pskStep k x) s = .next (s.raise (0x61000000#32 ||| slotBits k) .notcfg)) ∧
      (sl.psk.cfgd = true →
        let p := pskRun s.cfg.elOffset sl.psk x
        exec (.pskStep k x) s = .next ({ s with
            ports := { s.ports with
              out := s.ports.out.modify k.toNat
                (· ++ if sl.src.consumer then p.2.toList.map fun (e : SymbolEvent) => OutItem.symbol e.z else [])
              tap := s.ports.tap.modify k.toNat
                (· ++ if sl.src.tapen then p.2.toList.map SymbolEvent.snap else []) } }.put k { sl with psk := p.1 }
          (p.2.elim [0#32, 0#32, 0#32] fun e => [1#32, e.z.i, e.z.q]))))

/-- 42_psk.md R195, R196, R198 to R203, R207, R208, R210, R215 to R217: the whole of `PskStep`, statement by statement. -/
def Obligations.PskStepFollowsThePseudocode : Prop :=
  ∀ (e : Nat) (u : Psk) (x : C32),
    let wrap := fun p => if flt fPI p then fsub p fTWOPI else if flt p (fneg fPI) then fadd p fTWOPI else p
    let lerp1 := fun a b => fadd a (fmul u.mu (fsub b a))
    let lphase := wrap (fadd u.lphase u.lfreq)
    let c := fcos lphase
    let sn := fsin lphase
    let y : C32 := ⟨fadd (fmul x.i c) (fmul x.q sn), fsub (fmul x.q c) (fmul x.i sn)⟩
    let dl := (y :: u.dl).take u.dl.length
    let at' := fun n => dl.getD n C32.zero
    let point := fun n : Nat => (⟨lerp1 (at' n).i (at' (n - 1)).i, lerp1 (at' n).q (at' (n - 1)).q⟩ : C32)
    let b := u.sps.toNat / 2
    let cur := point b
    let mid := point (b + b)
    let early := point (b + e)
    let late := point (b - e)
    let mag := fun z : C32 => fsqrt (fadd (fmul z.i z.i) (fmul z.q z.q))
    let pe0 :=
      if flt (fabs cur.q) (fabs cur.i) then (if flt fZERO cur.i then cur.q else fneg cur.q)
      else (if flt fZERO cur.q then fneg cur.i else cur.i)
    let te0 :=
      if u.ted then fsub (mag late) (mag early)
      else fadd (fmul (fsub u.prev.i cur.i) mid.i) (fmul (fsub u.prev.q cur.q) mid.q)
    let pe := sanitize pe0
    let te := sanitize te0
    let lfreq := clampF (fadd u.lfreq (fmul u.beta pe)) (fneg u.fmax) u.fmax
    let omega := clampF (fadd u.omega (fmul u.gainOmega te)) u.omegaMin u.omegaMax
    let t := fadd (fadd u.mu omega) (fmul u.gainMu te)
    (u.skip ≠ 1#16 →
      pskRun e u x = ({ u with lphase := lphase, dl := dl, skip := u.skip - 1#16 }, none)) ∧
    (u.skip = 1#16 →
      pskRun e u x =
        ({ u with
            lfreq := lfreq
            lphase := wrap (fadd lphase (fadd lfreq (fmul u.alpha pe)))
            dl := dl
            omega := omega
            skip := BitVec.ofInt 16 (max 1 (f2iFloor t))
            mu := fsub t (i2f (f2iFloor t))
            prev := cur },
          some ⟨cur, dl, te, pe⟩))

/-- 42_psk.md R220: `PSK.STEPBLK` is the steps of its samples in order, as one command whose result is the number of
symbols; an empty block is legal; it has the checks of a step. -/
def Obligations.PskStepblkIsItsSteps : Prop :=
  ∀ (k : BitVec 8) (xs : List C32) (s : State),
    encode (.pskStepblk k xs) =
      (0x62000000#32 ||| slotBits k ||| BitVec.ofNat 32 (xs.length % 65536)) ::
        xs.flatMap (fun z => [z.i, z.q]) ∧
    (Standalone s k → (s.slot k.toNat).psk.cfgd = false →
      exec (.pskStepblk k xs) s =
        .next (s.raise (0x62000000#32 ||| slotBits k ||| BitVec.ofNat 32 (xs.length % 65536)) .notcfg)) ∧
    (Standalone s k → k.toNat < s.slots.length → (s.slot k.toNat).psk.cfgd = true →
      let t := afterAll (xs.map (.pskStep k)) s
      exec (.pskStepblk k xs) s =
        .next ({ t with resp := s.resp }.answering [BitVec.ofNat 32 (sumOfResults s t 1)]))

/-- 42_psk.md R199, R227: after `PSK.CFG` the first symbol comes with input sample `2·SPS` and no earlier. -/
def Obligations.FirstSymbolAfterTwoPeriods : Prop :=
  ∀ (k sps : BitVec 8) (ted : Bool) (alpha beta fmax gainmu gainomega : F32) (xs : List C32) (s : State),
    Standalone s k → 1 ≤ sps.toNat →
    (s.slot k.toNat).psk = pskInit sps ted alpha beta fmax gainmu gainomega → xs.length ≤ 2 * sps.toNat →
    ∃ t, exec (.pskStepblk k xs) s = .next t ∧
      t.resp = s.resp ++ [[0x00000100#32, if xs.length = 2 * sps.toNat then 1#32 else 0#32]]

/-- 42_psk.md R226, 10_state.md R61, R65: two runs that differ only in the consumer and tap bits have the same registers
after every command, apart from those bits. -/
def Obligations.ObserversDoNotAlterTheRegisters : Prop :=
  ∀ (is : List Instr) (s s' : State), s.withoutObservers = s'.withoutObservers →
    (afterAll is s).withoutObservers = (afterAll is s').withoutObservers

/-! ### Sample arithmetic (00_scope.md section 6) -/

/-- 00_scope.md R9: sums, differences, products and quotients of finite data are the exact real result correctly rounded
once; an exact zero has the IEEE sign. -/
def Obligations.ArithmeticIsCorrectlyRounded : Prop :=
  ∀ a b : F32, isFinite a = true → isFinite b = true →
    RoundsTo (fadd a b) ((valueOf a : ℝ) + valueOf b) ∧
    RoundsTo (fsub a b) ((valueOf a : ℝ) - valueOf b) ∧
    RoundsTo (fmul a b) ((valueOf a : ℝ) * valueOf b) ∧
    (isZero b = false → RoundsTo (fdiv a b) ((valueOf a : ℝ) / valueOf b)) ∧
    (valueOf a + valueOf b = 0 → isZero (fadd a b) = true ∧ signBit (fadd a b) = (signBit a && signBit b)) ∧
    (valueOf a - valueOf b = 0 → isZero (fsub a b) = true ∧ signBit (fsub a b) = (signBit a && !signBit b)) ∧
    ((isZero a = true ∨ isZero b = true) →
      isZero (fmul a b) = true ∧ signBit (fmul a b) = (signBit a != signBit b)) ∧
    (isZero a = true → isZero b = false →
      isZero (fdiv a b) = true ∧ signBit (fdiv a b) = (signBit a != signBit b))

/-- 00_scope.md R9: the square root of a datum of value at least zero is the real root correctly rounded; the root of a
zero is that zero. -/
def Obligations.SquareRootIsCorrectlyRounded : Prop :=
  ∀ a : F32, isFinite a = true → 0 ≤ valueOf a →
    RoundsTo (fsqrt a) (Real.sqrt (valueOf a : ℝ)) ∧ (isZero a = true → fsqrt a = a)

/-- 00_scope.md R9, R10: an operation gives a NaN exactly from a NaN operand or for an invalid operation; the other results
with an infinity or a zero divisor are the IEEE ones. -/
def Obligations.ExceptionalResultsAreIEEE : Prop :=
  ∀ a b : F32,
    (isNaN (fadd a b) = true ↔
      isNaN a = true ∨ isNaN b = true ∨ (isInf a = true ∧ isInf b = true ∧ signBit a ≠ signBit b)) ∧
    (isNaN (fsub a b) = true ↔
      isNaN a = true ∨ isNaN b = true ∨ (isInf a = true ∧ isInf b = true ∧ signBit a = signBit b)) ∧
    (isNaN (fmul a b) = true ↔
      isNaN a = true ∨ isNaN b = true ∨ (isInf a = true ∧ isZero b = true) ∨ (isZero a = true ∧ isInf b = true)) ∧
    (isNaN (fdiv a b) = true ↔
      isNaN a = true ∨ isNaN b = true ∨ (isInf a = true ∧ isInf b = true) ∨ (isZero a = true ∧ isZero b = true)) ∧
    (isNaN (fsqrt a) = true ↔ isNaN a = true ∨ (signBit a = true ∧ isZero a = false)) ∧
    (isInf a = true → isFinite b = true → fadd a b = a ∧ fadd b a = a ∧ fsub a b = a ∧ fsub b a = fneg a) ∧
    (isInf a = true → isInf b = true →
      (signBit a = signBit b → fadd a b = a) ∧ (signBit a ≠ signBit b → fsub a b = a)) ∧
    (isInf a = true → isNaN b = false → isZero b = false →
      fmul a b = infOf (signBit a != signBit b) ∧ fmul b a = infOf (signBit a != signBit b)) ∧
    (isInf a = true → isFinite b = true →
      fdiv a b = infOf (signBit a != signBit b) ∧ fdiv b a = zeroOf (signBit a != signBit b)) ∧
    (isFinite a = true → isZero a = false → isZero b = true → fdiv a b = infOf (signBit a != signBit b)) ∧
    (a = infOf false → fsqrt a = a)

/-- 00_scope.md R11, R12, R13: the comparisons are those of the reals, with the infinities at the two ends, and false for a
NaN; negation inverts bit 31 and magnitude clears it, and nothing else; the conversions are exact; clamping gives the
bound that is passed, else the value, a NaN included; sanitising gives +0.0 for a NaN and else clamps to ±1. -/
def Obligations.ComparisonsAndConversionsAreExact : Prop :=
  (∀ a b : F32, isFinite a = true → isFinite b = true →
    (flt a b = true ↔ valueOf a < valueOf b) ∧ (fle a b = true ↔ valueOf a ≤ valueOf b)) ∧
  (∀ a b : F32, (isNaN a = true ∨ isNaN b = true) → flt a b = false ∧ fle a b = false) ∧
  (∀ a : F32, isFinite a = true →
    flt a (infOf false) = true ∧ fle a (infOf false) = true ∧ flt (infOf true) a = true ∧ fle (infOf true) a = true ∧
    flt (infOf false) a = false ∧ fle (infOf false) a = false ∧ flt a (infOf true) = false ∧
    fle a (infOf true) = false) ∧
  (∀ n m : Bool, flt (infOf n) (infOf m) = (n && !m) ∧ fle (infOf n) (infOf m) = (n || !m)) ∧
  (∀ a : F32, isFinite a = true →
    isFinite (fneg a) = true ∧ valueOf (fneg a) = -valueOf a ∧
    isFinite (fabs a) = true ∧ valueOf (fabs a) = |valueOf a| ∧ f2iFloor a = ⌊valueOf a⌋) ∧
  (∀ a : F32, isNaN (fneg a) = isNaN a ∧ isNaN (fabs a) = isNaN a ∧
    (fneg a).getLsbD 31 = !a.getLsbD 31 ∧ (fabs a).getLsbD 31 = false ∧
    ∀ k < 31, (fneg a).getLsbD k = a.getLsbD k ∧ (fabs a).getLsbD k = a.getLsbD k) ∧
  (∀ n : Int, n.natAbs < 2 ^ 24 → isFinite (i2f n) = true ∧ valueOf (i2f n) = n) ∧
  (∀ a lo hi : F32, fle lo hi = true →
    (isNaN a = true → clampF a lo hi = a) ∧
    (flt a lo = true → clampF a lo hi = lo) ∧ (flt hi a = true → clampF a lo hi = hi) ∧
    clampF (infOf true) lo hi = lo ∧ clampF (infOf false) lo hi = hi ∧
    (isNaN a = false → fle lo (clampF a lo hi) = true ∧ fle (clampF a lo hi) hi = true) ∧
    (fle lo a = true → fle a hi = true → clampF a lo hi = a)) ∧
  (∀ a : F32, (isNaN a = true → sanitize a = fZERO) ∧ fle fMONE (sanitize a) = true ∧ fle (sanitize a) fONE = true ∧
    (flt a fMONE = true → sanitize a = fMONE) ∧ (flt fONE a = true → sanitize a = fONE) ∧
    (fle fMONE a = true → fle a fONE = true → sanitize a = a))

/-! ### Invariants that every step keeps -/

/-- 10_state.md R70, 70_reset_and_hazards.md R380: every invariant below holds right after reset, in every legal build. -/
def Obligations.ResetMeetsTheInvariants : Prop :=
  ∀ c : Config, c.Legal →
    CoreInv (State.resetWith c) ∧ QueuesOk (State.resetWith c) ∧ DeviceTold (State.resetWith c) ∧
    DecimatorsOk (State.resetWith c) ∧ LoopsOk (State.resetWith c)

/-- 10_state.md R34, R35, R36, 43_fc.md R256, R259, 45_src.md R302, 44_alloc.md R290: every step keeps the invariants of
the controller, the allocator and the live mixers. -/
def Obligations.StepKeepsTunerAndAllocator : Prop :=
  ∀ s t : State, CoreInv s → step s = .next t → CoreInv t

/-- 45_src.md R317 and 43_fc.md R257: every step keeps the queues within their bounds, and the last `SET_FREQ` told to the
device equal to `FC.TUNED`. -/
def Obligations.StepKeepsQueuesBoundedAndDeviceTold : Prop :=
  (∀ s t : State, QueuesOk s → step s = .next t → QueuesOk t) ∧
  (∀ s t : State, DeviceTold s → step s = .next t → DeviceTold t)

/-- 10_state.md R47, R48, R49: every step keeps the shape of every constructed decimator. -/
def Obligations.StepKeepsDecimatorShapes : Prop :=
  ∀ s t : State, DecimatorsOk s → step s = .next t → DecimatorsOk t

/-- 42_psk.md R225: every step keeps the loop invariant of every configured PSK unit, whatever the samples. -/
def Obligations.StepKeepsLoopInvariant : Prop :=
  ∀ s t : State, LoopsOk s → step s = .next t → LoopsOk t

/-- 10_state.md R61, 20_memory.md R90: an output port is append-only: no step removes, changes or reorders an item. -/
def Obligations.PortsOnlyGrow : Prop :=
  ∀ s t : State, step s = .next t → PortsExtend s t
end

