-- ==== Sys2Proof/Laws/State.lean ====
section
/-! SUPPORT. What each update of State does to each field, one lemma a field and update, each true by rfl. -/

namespace Sys2Proof.Machine

/-! ### setSlot -/

@[simp] theorem State.setSlot_cfg (s : State) (k : Nat) (sl : Slot) :
    (s.setSlot k sl).cfg = s.cfg := rfl

@[simp] theorem State.setSlot_fc (s : State) (k : Nat) (sl : Slot) :
    (s.setSlot k sl).fc = s.fc := rfl

@[simp] theorem State.setSlot_active (s : State) (k : Nat) (sl : Slot) :
    (s.setSlot k sl).active = s.active := rfl

@[simp] theorem State.setSlot_cache (s : State) (k : Nat) (sl : Slot) :
    (s.setSlot k sl).cache = s.cache := rfl

@[simp] theorem State.setSlot_err (s : State) (k : Nat) (sl : Slot) :
    (s.setSlot k sl).err = s.err := rfl

@[simp] theorem State.setSlot_slots (s : State) (k : Nat) (sl : Slot) :
    (s.setSlot k sl).slots = s.slots.set k sl := rfl

@[simp] theorem State.setSlot_ports (s : State) (k : Nat) (sl : Slot) :
    (s.setSlot k sl).ports = s.ports := rfl

@[simp] theorem State.setSlot_cmd (s : State) (k : Nat) (sl : Slot) :
    (s.setSlot k sl).cmd = s.cmd := rfl

@[simp] theorem State.setSlot_resp (s : State) (k : Nat) (sl : Slot) :
    (s.setSlot k sl).resp = s.resp := rfl

/-! ### emitDev -/

@[simp] theorem State.emitDev_cfg (s : State) (item : DevItem) :
    (s.emitDev item).cfg = s.cfg := rfl

@[simp] theorem State.emitDev_fc (s : State) (item : DevItem) :
    (s.emitDev item).fc = s.fc := rfl

@[simp] theorem State.emitDev_active (s : State) (item : DevItem) :
    (s.emitDev item).active = s.active := rfl

@[simp] theorem State.emitDev_cache (s : State) (item : DevItem) :
    (s.emitDev item).cache = s.cache := rfl

@[simp] theorem State.emitDev_err (s : State) (item : DevItem) :
    (s.emitDev item).err = s.err := rfl

@[simp] theorem State.emitDev_slots (s : State) (item : DevItem) :
    (s.emitDev item).slots = s.slots := rfl

@[simp] theorem State.emitDev_ports (s : State) (item : DevItem) :
    (s.emitDev item).ports = { s.ports with dev := s.ports.dev ++ [item] } := rfl

@[simp] theorem State.emitDev_cmd (s : State) (item : DevItem) :
    (s.emitDev item).cmd = s.cmd := rfl

@[simp] theorem State.emitDev_resp (s : State) (item : DevItem) :
    (s.emitDev item).resp = s.resp := rfl

/-! ### emitEvt -/

@[simp] theorem State.emitEvt_cfg (s : State) (item : FreqChange) :
    (s.emitEvt item).cfg = s.cfg := rfl

@[simp] theorem State.emitEvt_fc (s : State) (item : FreqChange) :
    (s.emitEvt item).fc = s.fc := rfl

@[simp] theorem State.emitEvt_active (s : State) (item : FreqChange) :
    (s.emitEvt item).active = s.active := rfl

@[simp] theorem State.emitEvt_cache (s : State) (item : FreqChange) :
    (s.emitEvt item).cache = s.cache := rfl

@[simp] theorem State.emitEvt_err (s : State) (item : FreqChange) :
    (s.emitEvt item).err = s.err := rfl

@[simp] theorem State.emitEvt_slots (s : State) (item : FreqChange) :
    (s.emitEvt item).slots = s.slots := rfl

@[simp] theorem State.emitEvt_ports (s : State) (item : FreqChange) :
    (s.emitEvt item).ports = { s.ports with
      evt := s.ports.evt.mapIdx fun l log => if s.fc.listenMask.getLsbD l then log ++ [item] else log } := rfl

@[simp] theorem State.emitEvt_cmd (s : State) (item : FreqChange) :
    (s.emitEvt item).cmd = s.cmd := rfl

@[simp] theorem State.emitEvt_resp (s : State) (item : FreqChange) :
    (s.emitEvt item).resp = s.resp := rfl

/-! ### emitWarn -/

@[simp] theorem State.emitWarn_cfg (s : State) (ks : List (BitVec 8)) :
    (s.emitWarn ks).cfg = s.cfg := rfl

@[simp] theorem State.emitWarn_fc (s : State) (ks : List (BitVec 8)) :
    (s.emitWarn ks).fc = s.fc := rfl

@[simp] theorem State.emitWarn_active (s : State) (ks : List (BitVec 8)) :
    (s.emitWarn ks).active = s.active := rfl

@[simp] theorem State.emitWarn_cache (s : State) (ks : List (BitVec 8)) :
    (s.emitWarn ks).cache = s.cache := rfl

@[simp] theorem State.emitWarn_err (s : State) (ks : List (BitVec 8)) :
    (s.emitWarn ks).err = s.err := rfl

@[simp] theorem State.emitWarn_slots (s : State) (ks : List (BitVec 8)) :
    (s.emitWarn ks).slots = s.slots := rfl

@[simp] theorem State.emitWarn_ports (s : State) (ks : List (BitVec 8)) :
    (s.emitWarn ks).ports = { s.ports with warn := s.ports.warn ++ ks } := rfl

@[simp] theorem State.emitWarn_cmd (s : State) (ks : List (BitVec 8)) :
    (s.emitWarn ks).cmd = s.cmd := rfl

@[simp] theorem State.emitWarn_resp (s : State) (ks : List (BitVec 8)) :
    (s.emitWarn ks).resp = s.resp := rfl

/-! ### emitOut -/

@[simp] theorem State.emitOut_cfg (s : State) (k : Nat) (items : List OutItem) :
    (s.emitOut k items).cfg = s.cfg := rfl

@[simp] theorem State.emitOut_fc (s : State) (k : Nat) (items : List OutItem) :
    (s.emitOut k items).fc = s.fc := rfl

@[simp] theorem State.emitOut_active (s : State) (k : Nat) (items : List OutItem) :
    (s.emitOut k items).active = s.active := rfl

@[simp] theorem State.emitOut_cache (s : State) (k : Nat) (items : List OutItem) :
    (s.emitOut k items).cache = s.cache := rfl

@[simp] theorem State.emitOut_err (s : State) (k : Nat) (items : List OutItem) :
    (s.emitOut k items).err = s.err := rfl

@[simp] theorem State.emitOut_slots (s : State) (k : Nat) (items : List OutItem) :
    (s.emitOut k items).slots = s.slots := rfl

@[simp] theorem State.emitOut_ports (s : State) (k : Nat) (items : List OutItem) :
    (s.emitOut k items).ports = { s.ports with out := s.ports.out.modify k (· ++ items) } := rfl

@[simp] theorem State.emitOut_cmd (s : State) (k : Nat) (items : List OutItem) :
    (s.emitOut k items).cmd = s.cmd := rfl

@[simp] theorem State.emitOut_resp (s : State) (k : Nat) (items : List OutItem) :
    (s.emitOut k items).resp = s.resp := rfl

/-! ### emitTap -/

@[simp] theorem State.emitTap_cfg (s : State) (k : Nat) (items : List Snapshot) :
    (s.emitTap k items).cfg = s.cfg := rfl

@[simp] theorem State.emitTap_fc (s : State) (k : Nat) (items : List Snapshot) :
    (s.emitTap k items).fc = s.fc := rfl

@[simp] theorem State.emitTap_active (s : State) (k : Nat) (items : List Snapshot) :
    (s.emitTap k items).active = s.active := rfl

@[simp] theorem State.emitTap_cache (s : State) (k : Nat) (items : List Snapshot) :
    (s.emitTap k items).cache = s.cache := rfl

@[simp] theorem State.emitTap_err (s : State) (k : Nat) (items : List Snapshot) :
    (s.emitTap k items).err = s.err := rfl

@[simp] theorem State.emitTap_slots (s : State) (k : Nat) (items : List Snapshot) :
    (s.emitTap k items).slots = s.slots := rfl

@[simp] theorem State.emitTap_ports (s : State) (k : Nat) (items : List Snapshot) :
    (s.emitTap k items).ports = { s.ports with tap := s.ports.tap.modify k (· ++ items) } := rfl

@[simp] theorem State.emitTap_cmd (s : State) (k : Nat) (items : List Snapshot) :
    (s.emitTap k items).cmd = s.cmd := rfl

@[simp] theorem State.emitTap_resp (s : State) (k : Nat) (items : List Snapshot) :
    (s.emitTap k items).resp = s.resp := rfl

/-! ### respond -/

@[simp] theorem State.respond_cfg (s : State) (e : Status) (ws : List Word) :
    (s.respond e ws).cfg = s.cfg := rfl

@[simp] theorem State.respond_fc (s : State) (e : Status) (ws : List Word) :
    (s.respond e ws).fc = s.fc := rfl

@[simp] theorem State.respond_active (s : State) (e : Status) (ws : List Word) :
    (s.respond e ws).active = s.active := rfl

@[simp] theorem State.respond_cache (s : State) (e : Status) (ws : List Word) :
    (s.respond e ws).cache = s.cache := rfl

@[simp] theorem State.respond_err (s : State) (e : Status) (ws : List Word) :
    (s.respond e ws).err = s.err := rfl

@[simp] theorem State.respond_slots (s : State) (e : Status) (ws : List Word) :
    (s.respond e ws).slots = s.slots := rfl

@[simp] theorem State.respond_ports (s : State) (e : Status) (ws : List Word) :
    (s.respond e ws).ports = s.ports := rfl

@[simp] theorem State.respond_cmd (s : State) (e : Status) (ws : List Word) :
    (s.respond e ws).cmd = s.cmd := rfl

@[simp] theorem State.respond_resp (s : State) (e : Status) (ws : List Word) :
    (s.respond e ws).resp = s.resp ++ [responseHead e ws.length :: ws] := rfl

/-! ### raise -/

@[simp] theorem State.raise_cfg (s : State) (h : Word) (e : Status) :
    (s.raise h e).cfg = s.cfg := rfl

@[simp] theorem State.raise_fc (s : State) (h : Word) (e : Status) :
    (s.raise h e).fc = s.fc := rfl

@[simp] theorem State.raise_active (s : State) (h : Word) (e : Status) :
    (s.raise h e).active = s.active := rfl

@[simp] theorem State.raise_cache (s : State) (h : Word) (e : Status) :
    (s.raise h e).cache = s.cache := rfl

@[simp] theorem State.raise_err (s : State) (h : Word) (e : Status) :
    (s.raise h e).err = ⟨statusCode e, h, satInc s.err.cnt⟩ := rfl

@[simp] theorem State.raise_slots (s : State) (h : Word) (e : Status) :
    (s.raise h e).slots = s.slots := rfl

@[simp] theorem State.raise_ports (s : State) (h : Word) (e : Status) :
    (s.raise h e).ports = s.ports := rfl

@[simp] theorem State.raise_cmd (s : State) (h : Word) (e : Status) :
    (s.raise h e).cmd = s.cmd := rfl

@[simp] theorem State.raise_resp (s : State) (h : Word) (e : Status) :
    (s.raise h e).resp = s.resp ++ [[responseHead e 0]] := rfl

/-! ### store -/

@[simp] theorem State.store_cfg (s : State) (k : Nat) (w : Work) :
    (s.store k w).cfg = s.cfg := rfl

@[simp] theorem State.store_fc (s : State) (k : Nat) (w : Work) :
    (s.store k w).fc = s.fc := rfl

@[simp] theorem State.store_active (s : State) (k : Nat) (w : Work) :
    (s.store k w).active = s.active := rfl

@[simp] theorem State.store_cache (s : State) (k : Nat) (w : Work) :
    (s.store k w).cache = s.cache := rfl

@[simp] theorem State.store_err (s : State) (k : Nat) (w : Work) :
    (s.store k w).err = s.err := rfl

@[simp] theorem State.store_slots (s : State) (k : Nat) (w : Work) :
    (s.store k w).slots = s.slots.set k w.sl := rfl

@[simp] theorem State.store_ports (s : State) (k : Nat) (w : Work) :
    (s.store k w).ports = { s.ports with
      out := s.ports.out.modify k (· ++ w.out), tap := s.ports.tap.modify k (· ++ w.tap) } := rfl

@[simp] theorem State.store_cmd (s : State) (k : Nat) (w : Work) :
    (s.store k w).cmd = s.cmd := rfl

@[simp] theorem State.store_resp (s : State) (k : Nat) (w : Work) :
    (s.store k w).resp = s.resp := rfl

/-! ### deliver -/

@[simp] theorem State.deliver_cfg (s : State) :
    (s.deliver).cfg = s.cfg := rfl

@[simp] theorem State.deliver_fc (s : State) :
    (s.deliver).fc = s.fc := rfl

@[simp] theorem State.deliver_active (s : State) :
    (s.deliver).active = s.active := rfl

@[simp] theorem State.deliver_cache (s : State) :
    (s.deliver).cache = s.cache := rfl

@[simp] theorem State.deliver_err (s : State) :
    (s.deliver).err = s.err := rfl

@[simp] theorem State.deliver_slots (s : State) :
    (s.deliver).slots = s.slots.map (reprogram s.fc) := rfl

@[simp] theorem State.deliver_ports (s : State) :
    (s.deliver).ports = (s.emitEvt ⟨s.fc.freq, s.fc.tuned⟩).ports := rfl

@[simp] theorem State.deliver_cmd (s : State) :
    (s.deliver).cmd = s.cmd := rfl

@[simp] theorem State.deliver_resp (s : State) :
    (s.deliver).resp = s.resp := rfl

/-! ### freqCommit -/

@[simp] theorem State.freqCommit_cfg (s : State) (f t : Int) :
    (s.freqCommit f t).cfg = s.cfg := rfl

@[simp] theorem State.freqCommit_fc (s : State) (f t : Int) :
    (s.freqCommit f t).fc = { s.fc with freq := s64 f, tuned := s64 t, freqValid := true } := rfl

@[simp] theorem State.freqCommit_active (s : State) (f t : Int) :
    (s.freqCommit f t).active = s.active := rfl

@[simp] theorem State.freqCommit_cache (s : State) (f t : Int) :
    (s.freqCommit f t).cache = s.cache := rfl

@[simp] theorem State.freqCommit_err (s : State) (f t : Int) :
    (s.freqCommit f t).err = s.err := rfl

@[simp] theorem State.freqCommit_slots (s : State) (f t : Int) :
    (s.freqCommit f t).slots = s.slots.map (reprogram { s.fc with freq := s64 f, tuned := s64 t, freqValid := true }) := rfl

@[simp] theorem State.freqCommit_cmd (s : State) (f t : Int) :
    (s.freqCommit f t).cmd = s.cmd := rfl

@[simp] theorem State.freqCommit_resp (s : State) (f t : Int) :
    (s.freqCommit f t).resp = s.resp := rfl

/-! ### release -/

@[simp] theorem State.release_cfg (s : State) (k : Nat) :
    (s.release k).cfg = s.cfg := rfl

@[simp] theorem State.release_active (s : State) (k : Nat) :
    (s.release k).active = s.active.filter fun c => c.slot.toNat ≠ k := rfl

@[simp] theorem State.release_cache (s : State) (k : Nat) :
    (s.release k).cache = s.cache := rfl

@[simp] theorem State.release_err (s : State) (k : Nat) :
    (s.release k).err = s.err := rfl

@[simp] theorem State.release_ports (s : State) (k : Nat) :
    (s.release k).ports = s.ports := rfl

@[simp] theorem State.release_cmd (s : State) (k : Nat) :
    (s.release k).cmd = s.cmd := rfl

@[simp] theorem State.release_resp (s : State) (k : Nat) :
    (s.release k).resp = s.resp := rfl

/-! ### consume -/

@[simp] theorem State.consume_cfg (s : State) (rest : List Word) :
    (s.consume rest).cfg = s.cfg := rfl

@[simp] theorem State.consume_fc (s : State) (rest : List Word) :
    (s.consume rest).fc = s.fc := rfl

@[simp] theorem State.consume_active (s : State) (rest : List Word) :
    (s.consume rest).active = s.active := rfl

@[simp] theorem State.consume_cache (s : State) (rest : List Word) :
    (s.consume rest).cache = s.cache := rfl

@[simp] theorem State.consume_err (s : State) (rest : List Word) :
    (s.consume rest).err = s.err := rfl

@[simp] theorem State.consume_slots (s : State) (rest : List Word) :
    (s.consume rest).slots = s.slots := rfl

@[simp] theorem State.consume_ports (s : State) (rest : List Word) :
    (s.consume rest).ports = s.ports := rfl

@[simp] theorem State.consume_cmd (s : State) (rest : List Word) :
    (s.consume rest).cmd = rest := rfl

@[simp] theorem State.consume_resp (s : State) (rest : List Word) :
    (s.consume rest).resp = s.resp := rfl

/-! ### present -/

@[simp] theorem State.present_cfg (s : State) (ws : List Word) :
    (s.present ws).cfg = s.cfg := rfl

@[simp] theorem State.present_fc (s : State) (ws : List Word) :
    (s.present ws).fc = s.fc := rfl

@[simp] theorem State.present_active (s : State) (ws : List Word) :
    (s.present ws).active = s.active := rfl

@[simp] theorem State.present_cache (s : State) (ws : List Word) :
    (s.present ws).cache = s.cache := rfl

@[simp] theorem State.present_err (s : State) (ws : List Word) :
    (s.present ws).err = s.err := rfl

@[simp] theorem State.present_slots (s : State) (ws : List Word) :
    (s.present ws).slots = s.slots := rfl

@[simp] theorem State.present_ports (s : State) (ws : List Word) :
    (s.present ws).ports = s.ports := rfl

@[simp] theorem State.present_cmd (s : State) (ws : List Word) :
    (s.present ws).cmd = s.cmd ++ ws := rfl

@[simp] theorem State.present_resp (s : State) (ws : List Word) :
    (s.present ws).resp = s.resp := rfl

/-! ### presentFirst -/

@[simp] theorem State.presentFirst_cfg (s : State) (ws : List Word) :
    (s.presentFirst ws).cfg = s.cfg := rfl

@[simp] theorem State.presentFirst_fc (s : State) (ws : List Word) :
    (s.presentFirst ws).fc = s.fc := rfl

@[simp] theorem State.presentFirst_active (s : State) (ws : List Word) :
    (s.presentFirst ws).active = s.active := rfl

@[simp] theorem State.presentFirst_cache (s : State) (ws : List Word) :
    (s.presentFirst ws).cache = s.cache := rfl

@[simp] theorem State.presentFirst_err (s : State) (ws : List Word) :
    (s.presentFirst ws).err = s.err := rfl

@[simp] theorem State.presentFirst_slots (s : State) (ws : List Word) :
    (s.presentFirst ws).slots = s.slots := rfl

@[simp] theorem State.presentFirst_ports (s : State) (ws : List Word) :
    (s.presentFirst ws).ports = s.ports := rfl

@[simp] theorem State.presentFirst_cmd (s : State) (ws : List Word) :
    (s.presentFirst ws).cmd = ws ++ s.cmd := rfl

@[simp] theorem State.presentFirst_resp (s : State) (ws : List Word) :
    (s.presentFirst ws).resp = s.resp := rfl

/-! ### resetCore -/

@[simp] theorem State.resetCore_cfg (s : State) :
    (s.resetCore).cfg = s.cfg := rfl

@[simp] theorem State.resetCore_fc (s : State) :
    (s.resetCore).fc = Fc.reset := rfl

@[simp] theorem State.resetCore_active (s : State) :
    (s.resetCore).active = [] := rfl

@[simp] theorem State.resetCore_cache (s : State) :
    (s.resetCore).cache = [] := rfl

@[simp] theorem State.resetCore_err (s : State) :
    (s.resetCore).err = ErrRegs.reset := rfl

@[simp] theorem State.resetCore_slots (s : State) :
    (s.resetCore).slots = List.replicate s.cfg.nsrc Slot.reset := rfl

@[simp] theorem State.resetCore_ports (s : State) :
    (s.resetCore).ports = s.ports := rfl

@[simp] theorem State.resetCore_cmd (s : State) :
    (s.resetCore).cmd = s.cmd := rfl

@[simp] theorem State.resetCore_resp (s : State) :
    (s.resetCore).resp = s.resp := rfl

end Sys2Proof.Machine
end

