-- ==== Sys2Proof/Laws/Ops.lean ====
section
/-! SUPPORT. What each shared operation does, said once: answering, failing, reaching a slot, storing work. -/

namespace Sys2Proof.Machine

/-! ### Counters, headers, 64-bit values -/

/-- A saturating counter stops at its maximum and counts below it. -/
theorem satInc_eq (n : Word) : satInc n = if n.toNat = 2 ^ 32 - 1 then n else n + 1#32 := by
  unfold satInc
  have := n.isLt
  by_cases h : n.toNat = 2 ^ 32 - 1
  · rw [if_neg (by omega), if_pos h]
  · rw [if_pos (by omega), if_neg h]

/-- The S64 register of the value of an S64 register is that register. -/
@[simp] theorem s64_toInt (f : BitVec 64) : s64 f.toInt = f := by simp [s64]

/-- A value that fits S64 is what the register holds. -/
theorem toInt_s64 {v : Int} (h : -2 ^ 63 ≤ v) (h' : v < 2 ^ 63) : (s64 v).toInt = v := by
  unfold s64
  rw [BitVec.toInt_ofInt]
  exact Int.bmod_eq_of_le (by omega) (by omega)

/-- The legal range of a frequency operand, as a proposition. -/
theorem legalFreq_iff (f : BitVec 64) : legalFreq f = true ↔ 0 ≤ f.toInt ∧ f.toInt ≤ 2 ^ 62 - 1 := by
  unfold legalFreq freqLimit
  rw [decide_eq_true_iff]

/-- The legal range of a mixer frequency, as a proposition. -/
theorem legalOffset_iff (f : BitVec 64) :
    legalOffset f = true ↔ -(2 ^ 62 - 1) ≤ f.toInt ∧ f.toInt ≤ 2 ^ 62 - 1 := by
  unfold legalOffset freqLimit
  rw [decide_eq_true_iff]
  omega

/-- The legal samples per symbol, as a proposition. -/
theorem legalSps_iff (e : Nat) (sps : BitVec 8) :
    legalSps e sps = true ↔ 4 ≤ sps.toNat ∧ sps.toNat ≤ 127 ∧ (e : Int) ≤ (sps.toNat / 2 : Nat) - 1 := by
  unfold legalSps
  rw [decide_eq_true_iff]
  rfl

/-- A header is its three fields, each in its place. -/
theorem headerWord_eq_or (op k : BitVec 8) (imm : BitVec 16) :
    headerWord op k imm = op.setWidth 32 <<< 24 ||| slotBits k ||| imm.setWidth 32 := by
  apply BitVec.eq_of_getLsbD_eq
  intro i hi
  simp only [headerWord, slotBits, BitVec.getLsbD_append, BitVec.getLsbD_or, BitVec.getLsbD_shiftLeft,
    BitVec.getLsbD_setWidth]
  rcases Nat.lt_or_ge i 16 with h | h
  · simp [h, show i < 24 by omega, hi]
  · rcases Nat.lt_or_ge i 24 with h2 | h2
    · simp [show ¬ i < 16 by omega, hi, h2, show i - 16 < 8 by omega, BitVec.getLsbD_of_ge imm i h]
      omega
    · simp [show ¬ i < 16 by omega, hi, show ¬ i < 24 by omega, show ¬ (i - 16 < 8) by omega,
        BitVec.getLsbD_of_ge imm i h, BitVec.getLsbD_of_ge k (i - 16) (by omega), Nat.sub_sub]
      omega

/-! ### Answering and failing -/

/-- Word 0 of a response is its count in bits 15:8 and its status in bits 7:0. -/
theorem responseHead_eq (e : Status) {n : Nat} (h : n < 256) :
    responseHead e n = BitVec.ofNat 32 (256 * n + (statusCode e).toNat) := by
  apply BitVec.eq_of_toNat_eq
  have := (statusCode e).isLt
  rw [responseHead, BitVec.toNat_append, BitVec.toNat_append, ← Nat.shiftLeft_add_eq_or_of_lt (by omega),
    ← Nat.shiftLeft_add_eq_or_of_lt (by omega)]
  simp [Nat.shiftLeft_eq]
  omega

/-- A response with status OK. -/
theorem respond_ok {rs : List Word} (h : rs.length < 256) (s : State) : s.respond .ok rs = s.answering rs := by
  simp [State.respond, State.answering, responseHead_eq _ h, statusCode]

/-- A command that succeeds answers its results and leaves the rest of the state it is given. -/
theorem succeed_eq {rs : List Word} (h : rs.length < 256) (s : State) : succeed rs s = .next (s.answering rs) := by
  rw [succeed, respond_ok h]

/-- A failing command changes the three error registers and answers its code, nothing else. -/
theorem raise_eq (s : State) (h : Word) (e : Status) :
    s.raise h e = { s with
      err := ⟨statusCode e, h, satInc s.err.cnt⟩
      resp := s.resp ++ [[(statusCode e).setWidth 32]] } := by
  simp [State.raise, State.respond, responseHead_eq]

@[simp] theorem answering_cfg (s : State) (rs : List Word) : (s.answering rs).cfg = s.cfg := rfl
@[simp] theorem answering_fc (s : State) (rs : List Word) : (s.answering rs).fc = s.fc := rfl
@[simp] theorem answering_active (s : State) (rs : List Word) : (s.answering rs).active = s.active := rfl
@[simp] theorem answering_cache (s : State) (rs : List Word) : (s.answering rs).cache = s.cache := rfl
@[simp] theorem answering_err (s : State) (rs : List Word) : (s.answering rs).err = s.err := rfl
@[simp] theorem answering_slots (s : State) (rs : List Word) : (s.answering rs).slots = s.slots := rfl
@[simp] theorem answering_ports (s : State) (rs : List Word) : (s.answering rs).ports = s.ports := rfl
@[simp] theorem answering_cmd (s : State) (rs : List Word) : (s.answering rs).cmd = s.cmd := rfl

@[simp] theorem answering_resp (s : State) (rs : List Word) :
    (s.answering rs).resp = s.resp ++ [BitVec.ofNat 32 (256 * rs.length) :: rs] := rfl

@[simp] theorem put_cfg (s : State) (k : BitVec 8) (sl : Slot) (rs : List Word) : (s.put k sl rs).cfg = s.cfg := rfl
@[simp] theorem put_fc (s : State) (k : BitVec 8) (sl : Slot) (rs : List Word) : (s.put k sl rs).fc = s.fc := rfl
@[simp] theorem put_active (s : State) (k : BitVec 8) (sl : Slot) (rs : List Word) :
    (s.put k sl rs).active = s.active := rfl
@[simp] theorem put_cache (s : State) (k : BitVec 8) (sl : Slot) (rs : List Word) :
    (s.put k sl rs).cache = s.cache := rfl
@[simp] theorem put_err (s : State) (k : BitVec 8) (sl : Slot) (rs : List Word) : (s.put k sl rs).err = s.err := rfl
@[simp] theorem put_slots (s : State) (k : BitVec 8) (sl : Slot) (rs : List Word) :
    (s.put k sl rs).slots = s.slots.set k.toNat sl := rfl
@[simp] theorem put_ports (s : State) (k : BitVec 8) (sl : Slot) (rs : List Word) :
    (s.put k sl rs).ports = s.ports := rfl
@[simp] theorem put_cmd (s : State) (k : BitVec 8) (sl : Slot) (rs : List Word) : (s.put k sl rs).cmd = s.cmd := rfl

/-! ### Reaching a slot -/

/-- A live source is IDLE or RUNNING. -/
theorem live_iff (sl : Slot) : sl.live = true ↔ sl.src.state = .idle ∨ sl.src.state = .running := by
  unfold Slot.live
  rw [decide_eq_true_iff]

/-- No live source: FREE or STOPPED. -/
theorem live_false_iff (sl : Slot) : sl.live = false ↔ sl.src.state = .free ∨ sl.src.state = .stopped := by
  rw [← Bool.not_eq_true, live_iff]
  cases sl.src.state <;> simp

/-- The slots of a state at a place it has. -/
theorem slot_eq_of_getElem? {s : State} {k : Nat} {sl : Slot} (h : s.slots[k]? = some sl) : s.slot k = sl := by
  simp [State.slot, List.getD, h]

/-- A place the state has no slot at reads as a reset slot. -/
theorem slot_of_length_le {s : State} {k : Nat} (h : s.slots.length ≤ k) : s.slot k = Slot.reset := by
  simp [State.slot, List.getD, List.getElem?_eq_none h]

/-- Reading the slot just written. -/
theorem slot_setSlot_same {s : State} {k : Nat} (h : k < s.slots.length) (sl : Slot) :
    (s.setSlot k sl).slot k = sl := by
  simp [State.slot, State.setSlot, List.getD, h]

/-- Writing one slot leaves every other as it was. -/
theorem slot_setSlot_ne {s : State} {j k : Nat} (h : j ≠ k) (sl : Slot) : (s.setSlot k sl).slot j = s.slot j := by
  simp [State.slot, State.setSlot, List.getD, List.getElem?_set_ne (Ne.symm h)]

/-- A slot of the state is one of its slots, or a reset slot. -/
theorem slot_mem_or_reset (s : State) (k : Nat) : s.slot k ∈ s.slots ∨ s.slot k = Slot.reset := by
  rcases Nat.lt_or_ge k s.slots.length with h | h
  · left
    simp [State.slot, List.getD, h]
  · exact .inr (slot_of_length_le h)

/-- A slot that does not exist. -/
theorem withSlot_missing {k : BitVec 8} {s : State} (hk : s.cfg.nsrc ≤ k.toNat) (h : Word) (body : Slot → Result) :
    withSlot h k s body = .next (s.raise h .slot) := by
  simp [withSlot, hk, fail]

/-- A slot that exists. -/
theorem withSlot_present {k : BitVec 8} {s : State} (hk : k.toNat < s.cfg.nsrc) (h : Word) (body : Slot → Result) :
    withSlot h k s body = body (s.slot k.toNat) := by
  simp [withSlot, Nat.not_le.mpr hk]

/-- A standalone command on a slot without a live source. -/
theorem withStandalone_of_standalone {k : BitVec 8} {s : State} (hk : Standalone s k) (h : Word)
    (body : Slot → Result) : withStandalone h k s body = body (s.slot k.toNat) := by
  rw [withStandalone, withSlot_present hk.1, (live_false_iff _).mpr hk.2]
  rfl

/-- A standalone command on a slot with a live source. -/
theorem withStandalone_of_live {k : BitVec 8} {s : State} (hk : k.toNat < s.cfg.nsrc)
    (hl : (s.slot k.toNat).live = true) (h : Word) (body : Slot → Result) :
    withStandalone h k s body = .next (s.raise h .state) := by
  rw [withStandalone, withSlot_present hk, hl]
  rfl

/-- An SRC command on a slot whose state it applies to. -/
theorem withSource_applies {k : BitVec 8} {s : State} {p : SrcState → Bool} (hk : k.toNat < s.cfg.nsrc)
    (hs : (s.slot k.toNat).src.state ≠ .stopped) (hp : p (s.slot k.toNat).src.state = true) (h : Word)
    (body : Slot → Result) : withSource h k s p body = body (s.slot k.toNat) := by
  rw [withSource, withSlot_present hk, if_neg hs, if_pos hp]

/-- An SRC command on a STOPPED slot. -/
theorem withSource_stopped {k : BitVec 8} {s : State} {p : SrcState → Bool} (hk : k.toNat < s.cfg.nsrc)
    (hs : (s.slot k.toNat).src.state = .stopped) (h : Word) (body : Slot → Result) :
    withSource h k s p body = .next (s.raise h .stopped) := by
  rw [withSource, withSlot_present hk, if_pos hs, fail]

/-- An SRC command on a slot whose state it does not apply to. -/
theorem withSource_refused {k : BitVec 8} {s : State} {p : SrcState → Bool} (hk : k.toNat < s.cfg.nsrc)
    (hs : (s.slot k.toNat).src.state ≠ .stopped) (hp : p (s.slot k.toNat).src.state = false) (h : Word)
    (body : Slot → Result) : withSource h k s p body = .next (s.raise h .state) := by
  rw [withSource, withSlot_present hk, if_neg hs, hp]
  rfl

/-! ### What a command's frame can be -/

/-- What `withSlot` can answer: the slot error, or what the body answers for an existing slot. -/
theorem withSlot_cases {h : Word} {k : BitVec 8} {s t : State} {body : Slot → Result}
    (hx : withSlot h k s body = .next t) :
    t = s.raise h .slot ∨ (k.toNat < s.cfg.nsrc ∧ body (s.slot k.toNat) = .next t) := by
  unfold withSlot at hx
  split at hx
  · left
    simpa [fail] using hx.symm
  · exact .inr ⟨by omega, hx⟩

/-- What `withStandalone` can answer. -/
theorem withStandalone_cases {h : Word} {k : BitVec 8} {s t : State} {body : Slot → Result}
    (hx : withStandalone h k s body = .next t) :
    (∃ e, e ≠ .ok ∧ t = s.raise h e) ∨
      (k.toNat < s.cfg.nsrc ∧ (s.slot k.toNat).live = false ∧ body (s.slot k.toNat) = .next t) := by
  rcases withSlot_cases hx with rfl | ⟨hk, hx⟩
  · exact .inl ⟨_, by decide, rfl⟩
  · cases hl : (s.slot k.toNat).live <;> simp [hl, fail] at hx
    · exact .inr ⟨hk, rfl, hx⟩
    · exact .inl ⟨.state, by decide, hx.symm⟩

/-- What `withSource` can answer. -/
theorem withSource_cases {h : Word} {k : BitVec 8} {s t : State} {p : SrcState → Bool} {body : Slot → Result}
    (hx : withSource h k s p body = .next t) :
    (∃ e, e ≠ .ok ∧ t = s.raise h e) ∨
      (k.toNat < s.cfg.nsrc ∧ p (s.slot k.toNat).src.state = true ∧ body (s.slot k.toNat) = .next t) := by
  rcases withSlot_cases hx with rfl | ⟨hk, hx⟩
  · exact .inl ⟨_, by decide, rfl⟩
  · split at hx
    · exact .inl ⟨.stopped, by decide, by simpa [fail] using hx.symm⟩
    · split at hx
      · exact .inr ⟨hk, by assumption, hx⟩
      · exact .inl ⟨.state, by decide, by simpa [fail] using hx.symm⟩

/-! ### Storing work -/

/-- Storing a slot's work writes that slot and appends to its two ports. -/
theorem store_eq (s : State) (k : Nat) (w : Work) :
    s.store k w = { s with
      slots := s.slots.set k w.sl
      ports := { s.ports with
        out := s.ports.out.modify k (· ++ w.out)
        tap := s.ports.tap.modify k (· ++ w.tap) } } := rfl

/-- The privileged setter, field by field. -/
theorem freqCommit_eq (s : State) (f t : Int) :
    s.freqCommit f t = { s with
      fc := { s.fc with freq := s64 f, tuned := s64 t, freqValid := true }
      ports := { s.ports with
        dev := s.ports.dev ++ [.setFreq (s64 t)]
        evt := s.ports.evt.mapIdx fun l log =>
          if s.fc.listenMask.getLsbD l then log ++ [⟨s64 f, s64 t⟩] else log }
      slots := s.slots.map (reprogram { s.fc with freq := s64 f, tuned := s64 t, freqValid := true }) } := rfl

/-- A release, field by field. -/
theorem release_eq (s : State) (k : Nat) :
    s.release k = { s with
      active := s.active.filter fun c => c.slot.toNat ≠ k
      fc := { s.fc with
        locked := if (s.active.filter fun c => c.slot.toNat ≠ k).isEmpty then false else s.fc.locked }
      slots := s.slots.set k { s.slot k with src := { (s.slot k).src with state := .stopped, q := [] } } } := rfl

end Sys2Proof.Machine
end

