-- ==== Sys2Proof/Laws/Work.lean ====
section
/-! SUPPORT. Work on one slot, said once: a run of samples may be cut anywhere, and what a sample leaves alone. -/

namespace Sys2Proof.Machine

/-- The work `v`, done on the slot that `w` left, behind the work `w`. -/
def Work.followedBy (w v : Work) : Work :=
  ⟨v.sl, w.out ++ v.out, w.tap ++ v.tap, w.nout + v.nout, w.nblk + v.nblk, w.nsym + v.nsym⟩

@[simp] theorem followedBy_workOn (w : Work) : w.followedBy (workOn w.sl) = w := by
  simp [Work.followedBy, workOn]

@[simp] theorem workOn_followedBy (sl : Slot) (v : Work) : (workOn sl).followedBy v = v := by
  simp [Work.followedBy, workOn]

theorem followedBy_assoc (u v w : Work) : (u.followedBy v).followedBy w = u.followedBy (v.followedBy w) := by
  simp [Work.followedBy, Nat.add_assoc]

@[simp] theorem followedBy_sl (w v : Work) : (w.followedBy v).sl = v.sl := rfl

@[simp] theorem workOn_sl (sl : Slot) : (workOn sl).sl = sl := rfl

/-- A sample's work that only adds to what was done before it. -/
def Adds {α : Type} (f : Work → α → Work) : Prop := ∀ w x, f w x = w.followedBy (f (workOn w.sl) x)

/-- A run of samples each of which only adds, as a whole only adds. -/
theorem Adds.foldl {α : Type} {f : Work → α → Work} (hf : Adds f) : Adds (fun w (xs : List α) => xs.foldl f w) := by
  intro w xs
  show xs.foldl f w = w.followedBy (xs.foldl f (workOn w.sl))
  induction xs generalizing w with
  | nil => simp
  | cons x xs ih =>
    rw [List.foldl_cons, List.foldl_cons, ih (f w x), ih (f (workOn w.sl) x), hf w x, followedBy_assoc]
    rfl

theorem pushOne_adds (c : Config) : Adds (pushOne c) := by
  intro w x
  simp only [pushOne, workOn, Work.followedBy]
  split
  · simp
  · simp
    rfl

theorem pskOne_adds (c : Config) : Adds (pskOne c) := by
  intro w x
  simp only [pskOne, workOn, Work.followedBy]
  split
  · simp
  · simp
    exact ⟨rfl, rfl⟩

theorem route_adds (c : Config) : Adds (route c) := by
  intro w b
  unfold route
  rw [workOn_sl]
  split
  · exact (pskOne_adds c).foldl w b
  · simp [Work.followedBy, workOn]

theorem drainOne_adds (c : Config) : Adds (drainOne c) := by
  intro w x
  unfold drainOne
  rw [workOn_sl]
  simp only
  split
  · simp [Work.followedBy, workOn]
  · rw [route_adds c, route_adds c { workOn w.sl with sl := _, nblk := _ }]
    simp [Work.followedBy, workOn, Nat.add_assoc]

/-! ### What a sample leaves alone -/

/-- A push writes the decimator alone. -/
theorem pushOne_sl (c : Config) (w : Work) (x : C32) :
    (pushOne c w x).sl = { w.sl with cic := (cicRun c w.sl.cic x).cic } := by
  simp only [pushOne]
  split <;> rfl

/-- A loop step writes the loop alone. -/
theorem pskOne_sl (c : Config) (w : Work) (x : C32) :
    (pskOne c w x).sl = { w.sl with psk := (pskRun c.elOffset w.sl.psk x).1 } := by
  simp only [pskOne]
  split <;> simp_all

/-- A run of pushes keeps the slot's other units. -/
theorem foldl_pushOne_sl (c : Config) (w : Work) (xs : List C32) :
    (xs.foldl (pushOne c) w).sl = { w.sl with cic := xs.foldl (fun u x => (cicRun c u x).cic) w.sl.cic } := by
  induction xs generalizing w with
  | nil => rfl
  | cons x xs ih => rw [List.foldl_cons, ih, pushOne_sl]; rfl

/-- A run of loop steps keeps the slot's other units. -/
theorem foldl_pskOne_sl (c : Config) (w : Work) (xs : List C32) :
    (xs.foldl (pskOne c) w).sl = { w.sl with psk := xs.foldl (fun u x => (pskRun c.elOffset u x).1) w.sl.psk } := by
  induction xs generalizing w with
  | nil => rfl
  | cons x xs ih => rw [List.foldl_cons, ih, pskOne_sl]; rfl

/-- Routing a block keeps the slot's registers but those of the loop. -/
theorem route_sl (c : Config) (w : Work) (b : List C32) :
    (route c w b).sl = { w.sl with psk := (route c w b).sl.psk } := by
  unfold route
  split
  · rw [foldl_pskOne_sl]
  · rfl

/-- A drained sample leaves the SRC registers alone. -/
theorem drainOne_src (c : Config) (w : Work) (x : C32) : (drainOne c w x).sl.src = w.sl.src := by
  unfold drainOne
  simp only
  split
  · rfl
  · rw [route_sl]

/-- A drained sample steps the mixer once. -/
theorem drainOne_mix (c : Config) (w : Work) (x : C32) : (drainOne c w x).sl.mix = (mixRun w.sl.mix x).1 := by
  unfold drainOne
  simp only
  split
  · rfl
  · rw [route_sl]

/-- A run of drained samples leaves the SRC registers alone. -/
theorem foldl_drainOne_src (c : Config) (w : Work) (xs : List C32) : (xs.foldl (drainOne c) w).sl.src = w.sl.src := by
  induction xs generalizing w with
  | nil => rfl
  | cons x xs ih => rw [List.foldl_cons, ih, drainOne_src]

end Sys2Proof.Machine
end

