-- ==== Sys2Proof/Laws/Exec.lean ====
section
/-! SUPPORT. Everything a command can do, said once: it fails with one status, or it has done what `Done` says. Later
proofs case on this and do not unfold the meanings. -/

namespace Sys2Proof.Machine

/-- The state after a command that succeeded, with the tests it has passed. -/
def Done : Instr → State → State → Prop
  | .sysNop, s, t => t = s.answering []
  | .sysReset, s, t => t = s.resetCore.answering []
  | .sysStatus, s, t =>
    t = ({ s with err := { s.err with stat := 0, info := 0 } } : State).answering
      [s.err.stat.setWidth 32, s.err.info, s.err.cnt]
  | .sysInfo, s, t =>
    t = s.answering [version, u32 s.cfg.nsrc, u32 s.cfg.cicOrder, u32 s.cfg.outBlock, u32 s.cfg.qcap,
      u32 s.cfg.drainCap, u32 s.cfg.cacheCap, u32 s.cfg.nlisten]
  | .fcGetfreq, s, t => t = s.answering (words64 s.fc.freq)
  | .fcSetfreq f, s, t =>
    s.fc.locked = false ∧ legalFreq f = true ∧
      ∃ u, freqCheck s f.toInt s.fc.ppm.toInt = .ok u ∧ t = (s.freqCommit f.toInt u).answering []
  | .fcGetrate, s, t => t = s.answering [s.fc.rate]
  | .fcSetrate rate, s, t =>
    s.fc.locked = false ∧ rate ≠ 0 ∧
      t = (({ s with fc := { s.fc with rate := rate } } : State).emitDev (.setRate rate)).answering []
  | .fcSetppm ppm, s, t =>
    0 < ppmWhole s.cfg + ppm.toInt ∧
      ((s.fc.freqValid = false ∧ t = ({ s with fc := { s.fc with ppm := ppm } } : State).answering []) ∨
        (s.fc.freqValid = true ∧ ∃ u, freqCheck s s.fc.freq.toInt ppm.toInt = .ok u ∧
          t = (({ s with fc := { s.fc with ppm := ppm } } : State).freqCommit s.fc.freq.toInt u).answering []))
  | .fcSetbounds min max, s, t =>
    s.fc.locked = false ∧ 0 ≤ min.toInt ∧ max.toInt ≤ freqLimit ∧ min.toInt ≤ max.toInt ∧
      (s.fc.freqValid = true → min.toInt ≤ s.fc.tuned.toInt ∧ s.fc.tuned.toInt ≤ max.toInt) ∧
      t = ({ s with fc := { s.fc with min := min, max := max } } : State).answering []
  | .fcSetblackout bw, s, t =>
    s.fc.locked = false ∧ t = ({ s with fc := { s.fc with blackout := bw } } : State).answering []
  | .fcSetusable num den, s, t =>
    s.fc.locked = false ∧ den ≠ 0 ∧ num.toNat ≤ den.toNat ∧
      t = ({ s with fc := { s.fc with ufNum := num, ufDen := den } } : State).answering []
  | .fcGetstate, s, t =>
    t = s.answering ([fcFlags s.fc] ++ words64 s.fc.tuned ++ [s.fc.ppm] ++ words64 s.fc.min ++ words64 s.fc.max ++
      [s.fc.blackout, s.fc.ufNum, s.fc.ufDen, s.fc.listenMask.setWidth 32])
  | .fcListen mask, s, t =>
    mask.toNat < 2 ^ s.cfg.nlisten ∧ t = ({ s with fc := { s.fc with listenMask := mask } } : State).answering []
  | .allocGetsource r freq bw pass stop, s, t =>
    ∃ g, allocate s r freq bw pass stop = .ok g ∧ t = (s.grant r freq bw pass stop g).answering [u32 g.slot]
  | .allocRelease freq, s, t =>
    ((∀ c ∈ s.active, c.freq ≠ freq) ∧ t = s.answering [0#32]) ∨
      ∃ e ∈ s.active, e.freq = freq ∧ t = (s.release e.slot.toNat).answering [1#32]
  | .allocQuery index, s, t =>
    t = s.answering (u32 s.active.length ::
      (match s.active[index.toNat]? with
        | some c => words64 c.freq ++ [c.bw, c.slot.setWidth 32]
        | none => [0#32, 0#32, 0#32, 0#32]))
  | .srcStart k, s, t =>
    k.toNat < s.cfg.nsrc ∧ (s.slot k.toNat).src.state = .idle ∧
      t = s.put k { s.slot k.toNat with src := { (s.slot k.toNat).src with state := .running } } []
  | .srcStop k, s, t =>
    k.toNat < s.cfg.nsrc ∧ (s.slot k.toNat).live = true ∧ t = (s.release k.toNat).answering []
  | .srcDrain k, s, t =>
    k.toNat < s.cfg.nsrc ∧ (s.slot k.toNat).src.state = .running ∧
      ∃ w, w = (drained s.cfg (s.slot k.toNat)).foldl (drainBuffer s.cfg) (workOn (s.slot k.toNat)) ∧
        t = (s.store k.toNat w).answering
          [u32 (drained s.cfg (s.slot k.toNat)).length, u32 w.nblk, u32 w.nsym]
  | .srcFeed x, s, t =>
    1 ≤ x.length ∧ x.length ≤ s.cfg.bufMax ∧
      t = (({ s with slots := s.slots.map (feedSlot s.cfg.qcap x) } : State).emitWarn
        (feedWarnings s.cfg.qcap s.slots)).answering
        [u32 (s.slots.countP fun sl => sl.src.state = .running), u32 (s.slots.countP (feedDrops s.cfg.qcap))]
  | .srcStatus k, s, t =>
    k.toNat < s.cfg.nsrc ∧
      t = s.put k { s.slot k.toNat with src := { (s.slot k.toNat).src with ovf := false } }
        [slotFlags (s.slot k.toNat), u32 (s.slot k.toNat).src.q.length, (s.slot k.toNat).src.ovfCount]
  | .srcAttach k consumer tap, s, t =>
    k.toNat < s.cfg.nsrc ∧
      t = s.put k { s.slot k.toNat with src := { (s.slot k.toNat).src with consumer := consumer, tapen := tap } } []
  | .srcSetcorr k corr, s, t =>
    k.toNat < s.cfg.nsrc ∧ (s.slot k.toNat).live = true ∧
      t = s.put k { s.slot k.toNat with
        src := { (s.slot k.toNat).src with corr := corr }
        mix := { (s.slot k.toNat).mix with
          inc := mixInc (s.fc.freq.toInt - (s.slot k.toNat).src.chFreq.toInt - corr.toInt) s.fc.rate } } []
  | .mixSetfreq k f rate, s, t =>
    Standalone s k ∧ rate ≠ 0 ∧ legalOffset f = true ∧
      t = s.put k { s.slot k.toNat with
        mix := { (s.slot k.toNat).mix with inc := mixInc f.toInt rate, cfgd := true } } []
  | .mixNext k, s, t =>
    Standalone s k ∧ (s.slot k.toNat).mix.cfgd = true ∧
      t = s.put k { s.slot k.toNat with mix := (oscNext (s.slot k.toNat).mix).1 }
        (wordsC32 (oscNext (s.slot k.toNat).mix).2)
  | .mixStep k x, s, t =>
    Standalone s k ∧ (s.slot k.toNat).mix.cfgd = true ∧
      t = s.put k { s.slot k.toNat with mix := (mixRun (s.slot k.toNat).mix x).1 }
        (wordsC32 (mixRun (s.slot k.toNat).mix x).2)
  | .mixGetstate k, s, t =>
    k.toNat < s.cfg.nsrc ∧
      t = s.answering [(s.slot k.toNat).mix.phase, (s.slot k.toNat).mix.inc, wordOfBool (s.slot k.toNat).mix.cfgd]
  | .cicCfg k r rate pass stop, s, t =>
    Standalone s k ∧ rate ≠ 0 ∧ ∃ p, cicConstruct s rate r pass stop = .ok p ∧
      t = ({ s with cache := cacheAfter s rate r p } : State).put k
        { s.slot k.toNat with cic := cicInit s.cfg rate r pass stop p.fs p.taps } []
  | .cicPush k x, s, t =>
    Standalone s k ∧ (s.slot k.toNat).cic.cfgd = true ∧
      ∃ w, w = pushOne s.cfg (workOn (s.slot k.toNat)) x ∧
        t = (s.store k.toNat w).answering [u32 w.nout, u32 w.nblk]
  | .cicPushblk k xs, s, t =>
    Standalone s k ∧ (s.slot k.toNat).cic.cfgd = true ∧
      ∃ w, w = xs.foldl (pushOne s.cfg) (workOn (s.slot k.toNat)) ∧
        t = (s.store k.toNat w).answering [u32 w.nout, u32 w.nblk]
  | .cicGetcfg k n, s, t =>
    k.toNat < s.cfg.nsrc ∧
      t = s.answering [wordOfBool (s.slot k.toNat).cic.cfgd, u32 (s.slot k.toNat).cic.nds,
        factWord (s.slot k.toNat).cic n.toNat,
        if (s.slot k.toNat).cic.cfgd then u32 (s.slot k.toNat).cic.len else 0, u32 (s.slot k.toNat).cic.blkn]
  | .pskCfg k sps ted alpha beta fmax gainmu gainomega, s, t =>
    k.toNat < s.cfg.nsrc ∧ (s.slot k.toNat).src.state ≠ .running ∧
      (legalSps s.cfg.elOffset sps && legalGain alpha && legalGain beta && legalFmax fmax && legalGain gainmu &&
        legalGain gainomega) = true ∧
      t = s.put k { s.slot k.toNat with psk := pskInit sps ted alpha beta fmax gainmu gainomega } []
  | .pskStep k x, s, t =>
    Standalone s k ∧ (s.slot k.toNat).psk.cfgd = true ∧
      t = (s.store k.toNat (pskOne s.cfg (workOn (s.slot k.toNat)) x)).answering
        (stepResults (pskRun s.cfg.elOffset (s.slot k.toNat).psk x).2)
  | .pskStepblk k xs, s, t =>
    Standalone s k ∧ (s.slot k.toNat).psk.cfgd = true ∧
      ∃ w, w = xs.foldl (pskOne s.cfg) (workOn (s.slot k.toNat)) ∧
        t = (s.store k.toNat w).answering [u32 w.nsym]
  | .pskGetstate k, s, t =>
    k.toNat < s.cfg.nsrc ∧
      t = s.answering ([(s.slot k.toNat).psk.lphase, (s.slot k.toNat).psk.lfreq, (s.slot k.toNat).psk.mu,
        (s.slot k.toNat).psk.omega, (s.slot k.toNat).psk.skip.setWidth 32] ++ wordsC32 (s.slot k.toNat).psk.prev)

/-- The state after a command that failed. -/
def Failed (i : Instr) (s t : State) : Prop := ∃ e, e ≠ Status.ok ∧ t = s.raise i.header e

/-! ### What the checks can answer -/

/-- The range test passes with the corrected value, inside the bounds. -/
theorem freqCheck_ok {s : State} {f ppm u : Int} (h : freqCheck s f ppm = .ok u) :
    u = resolve s.cfg f ppm ∧ s.fc.min.toInt ≤ u ∧ u ≤ s.fc.max.toInt := by
  unfold freqCheck at h
  split at h
  · cases h
  · cases h
    omega

/-- The range test fails with `E_RANGE`. -/
theorem freqCheck_error {s : State} {f ppm : Int} {e : Status} (h : freqCheck s f ppm = .error e) : e = .range := by
  unfold freqCheck at h
  split at h <;> cases h
  rfl

/-- Construction fails with `E_RATIO` or `E_FILTER`. -/
theorem cicConstruct_error {s : State} {rate : Word} {r : BitVec 16} {pass stop : Word} {e : Status}
    (h : cicConstruct s rate r pass stop = .error e) : e = .ratio ∨ e = .filter := by
  unfold cicConstruct at h
  split at h
  · cases h; exact .inl rfl
  · split at h
    · cases h
    · split at h <;> cases h
      exact .inr rfl

/-- The checks of an allocation never fail with the code of success. -/
theorem allocate_error {s : State} {r : BitVec 16} {freq : BitVec 64} {bw pass stop : Word} {e : Status}
    (h : allocate s r freq bw pass stop = .error e) : e ≠ .ok := by
  unfold allocate at h
  split at h
  · cases h; decide
  split at h
  · cases h; decide
  split at h
  · cases h; decide
  split at h
  · cases h; decide
  simp only at h
  split at h
  · cases h; decide
  split at h
  · rename_i hr
    cases h
    unfold retuneCheck at hr
    split at hr
    · split at hr
      · rename_i hf
        cases hr
        rw [freqCheck_error hf]
        decide
      · cases hr
    · cases hr
  split at h
  · rename_i hc
    cases h
    rcases cicConstruct_error hc with rfl | rfl <;> decide
  · cases h

/-- What an allocation that passes every check has found (44_alloc.md R280). -/
theorem allocate_ok {s : State} {r : BitVec 16} {freq : BitVec 64} {bw pass stop : Word} {g : Grant}
    (h : allocate s r freq bw pass stop = .ok g) :
    s.fc.rate ≠ 0 ∧ legalFreq freq = true ∧ (∀ c ∈ s.active, c.freq ≠ freq) ∧ freeSlot s = some g.slot ∧
      g.proposed = insertChannel ⟨freq, bw, BitVec.ofNat 8 g.slot⟩ s.active ∧
      place s.fc.halfwin s.fc.blackout.toNat g.proposed = some g.center ∧
      ((g.tuned = none ∧ s.fc.freqValid = true ∧ g.center = s.fc.freq.toInt) ∨
        ∃ u, g.tuned = some u ∧ freqCheck s g.center s.fc.ppm.toInt = .ok u) ∧
      cicConstruct s s.fc.rate r pass stop = .ok g.plan := by
  unfold allocate at h
  split at h
  · cases h
  split at h
  · cases h
  split at h
  · cases h
  split at h
  · cases h
  simp only at h
  split at h
  · cases h
  split at h
  · cases h
  split at h
  · cases h
  cases h
  rename_i h1 h2 h3 _ _ h4 _ _ h5 _ _ h6 _ _ h7
  refine ⟨h1, by simpa using h2, by simpa using h3, h4, rfl, h5, ?_, h7⟩
  unfold retuneCheck at h6
  split at h6
  · split at h6
    · cases h6
    · rename_i u hu
      cases h6
      exact .inr ⟨u, rfl, hu⟩
  · rename_i hn
    cases h6
    have := not_or.mp hn
    exact .inl ⟨rfl, by simpa using this.1, by simpa using this.2⟩

/-! ### A command that answers -/

theorem of_succeed {rs : List Word} {s t : State} (hl : rs.length < 256) (h : succeed rs s = .next t) :
    t = s.answering rs := by
  rw [succeed_eq hl] at h
  exact (Host.Outcome.next.inj h).symm

theorem of_fail {i : Instr} {e : Status} {s t : State} (he : e ≠ .ok) (h : fail i.header e s = .next t) :
    Failed i s t :=
  ⟨e, he, (Host.Outcome.next.inj h).symm⟩

/-- FC and SYS commands. -/
theorem exec_cases_fc {i : Instr} {s t : State} (hi : slotField i = none) (h : exec i s = .next t) :
    Failed i s t ∨ Done i s t := by
  cases i <;> simp only [slotField, reduceCtorEq] at hi <;> simp only [exec] at h
  case sysNop => exact .inr (of_succeed (by simp) h)
  case sysReset => exact .inr (of_succeed (by simp) h)
  case sysStatus => exact .inr (of_succeed (by simp) h)
  case sysInfo => exact .inr (of_succeed (by simp) h)
  case fcGetfreq => exact .inr (of_succeed (by simp [words64]) h)
  case fcSetfreq f =>
    unfold execFcSetfreq at h
    split at h
    · exact .inl (of_fail (by decide) h)
    split at h
    · exact .inl (of_fail (by decide) h)
    split at h
    · rename_i e he
      exact .inl (of_fail (by rw [freqCheck_error he]; decide) h)
    · rename_i h1 h2 _ u hu
      exact .inr ⟨by simpa using h1, by simpa using h2, u, hu, of_succeed (by simp) h⟩
  case fcGetrate => exact .inr (of_succeed (by simp) h)
  case fcSetrate rate =>
    unfold execFcSetrate at h
    split at h
    · exact .inl (of_fail (by decide) h)
    split at h
    · exact .inl (of_fail (by decide) h)
    · rename_i h1 h2
      exact .inr ⟨by simpa using h1, h2, of_succeed (by simp) h⟩
  case fcSetppm ppm =>
    unfold execFcSetppm at h
    split at h
    · exact .inl (of_fail (by decide) h)
    rename_i h0
    split at h
    · split at h
      · rename_i e he
        exact .inl (of_fail (by rw [freqCheck_error he]; decide) h)
      · rename_i h1 _ u hu
        exact .inr ⟨by omega, .inr ⟨h1, u, hu, of_succeed (by simp) h⟩⟩
    · rename_i h1
      exact .inr ⟨by omega, .inl ⟨by simpa using h1, of_succeed (by simp) h⟩⟩
  case fcSetbounds min max =>
    unfold execFcSetbounds at h
    split at h
    · exact .inl (of_fail (by decide) h)
    split at h
    · exact .inl (of_fail (by decide) h)
    split at h
    · exact .inl (of_fail (by decide) h)
    · rename_i h1 h2 h3
      have h3 := fun hv => not_or.mp fun hr => h3 ⟨hv, hr⟩
      exact .inr ⟨by simpa using h1, by omega, by omega, by omega, fun hv => by have := h3 hv; omega,
        of_succeed (by simp) h⟩
  case fcSetblackout bw =>
    unfold execFcSetblackout at h
    split at h
    · exact .inl (of_fail (by decide) h)
    · rename_i h1
      exact .inr ⟨by simpa using h1, of_succeed (by simp) h⟩
  case fcSetusable num den =>
    unfold execFcSetusable at h
    split at h
    · exact .inl (of_fail (by decide) h)
    split at h
    · exact .inl (of_fail (by decide) h)
    · rename_i h1 h2
      exact .inr ⟨by simpa using h1, fun hd => h2 (.inl hd), by omega, of_succeed (by simp) h⟩
  case fcGetstate => exact .inr (of_succeed (by simp [words64]) h)
  case fcListen mask =>
    unfold execFcListen at h
    split at h
    · exact .inl (of_fail (by decide) h)
    · exact .inr ⟨by omega, of_succeed (by simp) h⟩
  case allocGetsource r freq bw pass stop =>
    unfold execAllocGetsource at h
    split at h
    · rename_i e he
      exact .inl (of_fail (allocate_error he) h)
    · rename_i g hg
      exact .inr ⟨g, hg, of_succeed (by simp) h⟩
  case allocRelease freq =>
    unfold execAllocRelease at h
    split at h
    · rename_i hf
      exact .inr (.inl ⟨fun c hc hcf => by simpa [hcf] using List.find?_eq_none.mp hf c hc, of_succeed (by simp) h⟩)
    · rename_i e he
      exact .inr (.inr ⟨e, List.mem_of_find?_eq_some he, by simpa using List.find?_some he, of_succeed (by simp) h⟩)
  case allocQuery index => exact .inr (of_succeed (by split <;> simp [words64]) h)
  case srcFeed x =>
    unfold execSrcFeed at h
    split at h
    · exact .inl (of_fail (by decide) h)
    · exact .inr ⟨by omega, by omega, of_succeed (by simp) h⟩

/-- Commands on a slot. -/
theorem exec_cases_slot {i : Instr} {s t : State} (hi : slotField i ≠ none) (h : exec i s = .next t) :
    Failed i s t ∨ Done i s t := by
  cases i <;> simp only [slotField, ne_eq, not_true_eq_false, reduceCtorEq] at hi <;> simp only [exec] at h
  case srcStart k =>
    rcases withSource_cases h with hf | ⟨hk, hp, h⟩
    · exact .inl hf
    · exact .inr ⟨hk, by simpa using hp, of_succeed (by simp) h⟩
  case srcStop k =>
    rcases withSource_cases h with hf | ⟨hk, hp, h⟩
    · exact .inl hf
    · exact .inr ⟨hk, (live_iff _).mpr (by simpa using hp), of_succeed (by simp) h⟩
  case srcDrain k =>
    rcases withSource_cases h with hf | ⟨hk, hp, h⟩
    · exact .inl hf
    · exact .inr ⟨hk, by simpa using hp, _, rfl, of_succeed (by simp) h⟩
  case srcStatus k =>
    rcases withSlot_cases h with rfl | ⟨hk, h⟩
    · exact .inl ⟨_, by decide, rfl⟩
    · exact .inr ⟨hk, of_succeed (by simp) h⟩
  case srcAttach k c tp =>
    rcases withSlot_cases h with rfl | ⟨hk, h⟩
    · exact .inl ⟨_, by decide, rfl⟩
    · exact .inr ⟨hk, of_succeed (by simp) h⟩
  case srcSetcorr k corr =>
    rcases withSource_cases h with hf | ⟨hk, hp, h⟩
    · exact .inl hf
    · exact .inr ⟨hk, (live_iff _).mpr (by simpa using hp), of_succeed (by simp) h⟩
  case mixSetfreq k f rate =>
    rcases withStandalone_cases h with hf | ⟨hk, hl, h⟩
    · exact .inl hf
    split at h
    · exact .inl (of_fail (by decide) h)
    · rename_i hn
      have hn := not_or.mp hn
      exact .inr ⟨⟨hk, (live_false_iff _).mp hl⟩, hn.1, by simpa using hn.2, of_succeed (by simp) h⟩
  case mixNext k =>
    rcases withStandalone_cases h with hf | ⟨hk, hl, h⟩
    · exact .inl hf
    split at h
    · exact .inl (of_fail (by decide) h)
    · rename_i hc
      exact .inr ⟨⟨hk, (live_false_iff _).mp hl⟩, by simpa using hc, of_succeed (by simp [wordsC32]) h⟩
  case mixStep k x =>
    rcases withStandalone_cases h with hf | ⟨hk, hl, h⟩
    · exact .inl hf
    split at h
    · exact .inl (of_fail (by decide) h)
    · rename_i hc
      exact .inr ⟨⟨hk, (live_false_iff _).mp hl⟩, by simpa using hc, of_succeed (by simp [wordsC32]) h⟩
  case mixGetstate k =>
    rcases withSlot_cases h with rfl | ⟨hk, h⟩
    · exact .inl ⟨_, by decide, rfl⟩
    · exact .inr ⟨hk, of_succeed (by simp) h⟩
  case cicCfg k r rate pass stop =>
    rcases withStandalone_cases h with hf | ⟨hk, hl, h⟩
    · exact .inl hf
    split at h
    · exact .inl (of_fail (by decide) h)
    rename_i hr
    split at h
    · rename_i e he
      exact .inl (of_fail (by rcases cicConstruct_error he with rfl | rfl <;> decide) h)
    · rename_i p hp
      exact .inr ⟨⟨hk, (live_false_iff _).mp hl⟩, hr, p, hp, of_succeed (by simp) h⟩
  case cicPush k x =>
    rcases withStandalone_cases h with hf | ⟨hk, hl, h⟩
    · exact .inl hf
    split at h
    · exact .inl (of_fail (by decide) h)
    · rename_i hc
      exact .inr ⟨⟨hk, (live_false_iff _).mp hl⟩, by simpa using hc, _, rfl, of_succeed (by simp) h⟩
  case cicPushblk k xs =>
    rcases withStandalone_cases h with hf | ⟨hk, hl, h⟩
    · exact .inl hf
    split at h
    · exact .inl (of_fail (by decide) h)
    · rename_i hc
      exact .inr ⟨⟨hk, (live_false_iff _).mp hl⟩, by simpa using hc, _, rfl, of_succeed (by simp) h⟩
  case cicGetcfg k n =>
    rcases withSlot_cases h with rfl | ⟨hk, h⟩
    · exact .inl ⟨_, by decide, rfl⟩
    · exact .inr ⟨hk, of_succeed (by simp) h⟩
  case pskCfg k sps ted alpha beta fmax gainmu gainomega =>
    rcases withSlot_cases h with rfl | ⟨hk, h⟩
    · exact .inl ⟨_, by decide, rfl⟩
    split at h
    · exact .inl (of_fail (by decide) h)
    rename_i hr
    split at h
    · rename_i hok
      exact .inr ⟨hk, hr, hok, of_succeed (by simp) h⟩
    · exact .inl (of_fail (by decide) h)
  case pskStep k x =>
    rcases withStandalone_cases h with hf | ⟨hk, hl, h⟩
    · exact .inl hf
    split at h
    · exact .inl (of_fail (by decide) h)
    · rename_i hc
      exact .inr ⟨⟨hk, (live_false_iff _).mp hl⟩, by simpa using hc,
        of_succeed (by unfold stepResults; split <;> simp [wordsC32]) h⟩
  case pskStepblk k xs =>
    rcases withStandalone_cases h with hf | ⟨hk, hl, h⟩
    · exact .inl hf
    split at h
    · exact .inl (of_fail (by decide) h)
    · rename_i hc
      exact .inr ⟨⟨hk, (live_false_iff _).mp hl⟩, by simpa using hc, _, rfl, of_succeed (by simp) h⟩
  case pskGetstate k =>
    rcases withSlot_cases h with rfl | ⟨hk, h⟩
    · exact .inl ⟨_, by decide, rfl⟩
    · exact .inr ⟨hk, of_succeed (by simp [wordsC32]) h⟩

/-- A command that answers has failed with one status or has done what it says. -/
theorem exec_cases {i : Instr} {s t : State} (h : exec i s = .next t) : Failed i s t ∨ Done i s t := by
  by_cases hi : slotField i = none
  · exact exec_cases_fc hi h
  · exact exec_cases_slot hi h

end Sys2Proof.Machine
end

