-- ==== Sys2Proof/Laws/Alloc.lean ====
section
/-! SUPPORT. The pieces of an allocation, said once: the ordered set, the free slot, construction. -/

namespace Sys2Proof.Machine

/-- An insertion adds the channel and nothing else. -/
theorem mem_insertChannel {ch c : Channel} {cs : List Channel} : c ∈ insertChannel ch cs ↔ c = ch ∨ c ∈ cs := by
  induction cs with
  | nil => simp [insertChannel]
  | cons d ds ih =>
    unfold insertChannel
    split
    · simp
    · simp only [List.mem_cons, ih]
      tauto

theorem length_insertChannel (ch : Channel) (cs : List Channel) : (insertChannel ch cs).length = cs.length + 1 := by
  induction cs with
  | nil => rfl
  | cons d ds ih =>
    unfold insertChannel
    split
    · rfl
    · simp [ih]

/-- The channel is inserted right before the first of a higher frequency. -/
theorem insertChannel_eq (ch : Channel) (cs : List Channel) :
    insertChannel ch cs = cs.takeWhile (fun c => decide (c.freq.toInt ≤ ch.freq.toInt)) ++
      ch :: cs.dropWhile (fun c => decide (c.freq.toInt ≤ ch.freq.toInt)) := by
  induction cs with
  | nil => rfl
  | cons d ds ih =>
    unfold insertChannel
    by_cases h : ch.freq.toInt < d.freq.toInt
    · simp [h, not_le.mpr h]
    · simp [h, not_lt.mp h, ih]

/-- A channel of a new frequency inserted into an ascending set gives an ascending set. -/
theorem pairwise_insertChannel {ch : Channel} {cs : List Channel}
    (hcs : cs.Pairwise (fun a b => a.freq.toInt < b.freq.toInt)) (hne : ∀ c ∈ cs, c.freq ≠ ch.freq) :
    (insertChannel ch cs).Pairwise (fun a b => a.freq.toInt < b.freq.toInt) := by
  induction cs with
  | nil => simp [insertChannel]
  | cons d ds ih =>
    have hds := List.pairwise_cons.mp hcs
    have hd : d.freq.toInt ≠ ch.freq.toInt := fun h => hne d (by simp) (BitVec.eq_of_toInt_eq h)
    unfold insertChannel
    split
    · rename_i hlt
      refine List.pairwise_cons.mpr ⟨fun c hc => ?_, hcs⟩
      rcases List.mem_cons.mp hc with rfl | hc
      · exact hlt
      · exact lt_trans hlt (hds.1 c hc)
    · refine List.pairwise_cons.mpr ⟨fun c hc => ?_, ih hds.2 fun c hc => hne c (List.mem_cons_of_mem _ hc)⟩
      rcases mem_insertChannel.mp hc with rfl | hc
      · omega
      · exact hds.1 c hc

/-- The slot an allocation takes exists, holds no live source, and is the lowest such slot. -/
theorem freeSlot_eq_some {s : State} {k : Nat} (h : freeSlot s = some k) :
    k < s.cfg.nsrc ∧ (s.slot k).live = false ∧ ∀ j < k, (s.slot j).live = true := by
  have := List.find?_range_eq_some.mp h
  refine ⟨by simpa using this.2.1, by simpa using this.1, fun j hjk => by simpa using this.2.2 j hjk⟩

/-- No slot is free when every slot holds a live source. -/
theorem freeSlot_eq_none {s : State} : freeSlot s = none ↔ ∀ k < s.cfg.nsrc, (s.slot k).live = true := by
  simp [freeSlot]

/-- What construction finds when it succeeds: the factors, and taps from the cache or from the design. -/
theorem cicConstruct_ok {s : State} {rate : Word} {r : BitVec 16} {pass stop : Word} {p : Plan}
    (h : cicConstruct s rate r pass stop = .ok p) :
    supported r.toNat = some p.fs ∧
      ((p.hit = true ∧ ∃ e, cacheFind s.cache rate r = some e ∧ p.taps = e.taps) ∨
        (p.hit = false ∧ cacheFind s.cache rate r = none ∧ design s.cfg.tapsMax rate r pass stop = some p.taps)) := by
  unfold cicConstruct at h
  split at h
  · cases h
  split at h
  · rename_i h1 _ e he
    cases h
    exact ⟨h1, .inl ⟨rfl, e, he, rfl⟩⟩
  split at h
  · cases h
  · rename_i h1 _ h2 _ taps h3
    cases h
    exact ⟨h1, .inr ⟨rfl, h2, h3⟩⟩

/-- A design that succeeds gives legal taps, for a band below half the output rate. -/
theorem design_eq_some {tapsMax : Nat} {rate : Word} {r : BitVec 16} {pass stop : Word} {taps : List F32}
    (h : design tapsMax rate r pass stop = some taps) :
    pass.toNat < stop.toNat ∧ 2 * stop.toNat * r.toNat ≤ rate.toNat ∧ legalTaps tapsMax taps = true := by
  unfold design at h
  split at h
  · cases h
  · exact ⟨by omega, by omega, (Option.filter_eq_some_iff.mp h).2⟩

end Sys2Proof.Machine
end

