-- ==== Sys2Proof/Laws/Decode.lean ====
section
/-! SUPPORT. The pieces of a record, said once: the fields of a header, a 64-bit operand, a list of samples, and the byte
transport, each read back from what writes it. -/

namespace Sys2Proof

/-! ### Header fields (30_encoding.md R100) -/

@[simp] theorem opcOf_headerWord (opc slot : BitVec 8) (imm : BitVec 16) : opcOf (headerWord opc slot imm) = opc := by
  apply BitVec.eq_of_getLsbD_eq
  intro i hi
  simp only [opcOf, headerWord, BitVec.getLsbD_extractLsb', BitVec.getLsbD_append, hi, decide_true, Bool.true_and]
  simp [show ¬ 24 + i < 16 by omega, show ¬ 24 + i - 16 < 8 by omega]
  congr 1
  omega

@[simp] theorem slotOf_headerWord (opc slot : BitVec 8) (imm : BitVec 16) : slotOf (headerWord opc slot imm) = slot := by
  apply BitVec.eq_of_getLsbD_eq
  intro i hi
  simp only [slotOf, headerWord, BitVec.getLsbD_extractLsb', BitVec.getLsbD_append, hi, decide_true, Bool.true_and]
  simp [hi]

@[simp] theorem immOf_headerWord (opc slot : BitVec 8) (imm : BitVec 16) : immOf (headerWord opc slot imm) = imm := by
  apply BitVec.eq_of_getLsbD_eq
  intro i hi
  simp only [immOf, headerWord, BitVec.getLsbD_extractLsb', BitVec.getLsbD_append, hi, decide_true, Bool.true_and]
  simp [hi]

/-! ### Operands (R101) -/

/-- A 64-bit operand is read back from its two words. -/
@[simp] theorem join64_lo64_hi64 (v : BitVec 64) : join64 (lo64 v) (hi64 v) = v := by
  apply BitVec.eq_of_getLsbD_eq
  intro i hi
  simp only [join64, lo64, hi64, BitVec.getLsbD_append, BitVec.getLsbD_extractLsb']
  split
  · simp [*]
  · rename_i h
    simp [show i - 32 < 32 by omega, show 32 + (i - 32) = i by omega]

/-- Samples are read back from their words. -/
@[simp] theorem samplesOf_wordsOfSamples (xs : List C32) : samplesOf (wordsOfSamples xs) = xs := by
  induction xs with
  | nil => rfl
  | cons x xs ih => simp [wordsOfSamples, samplesOf, ih]

/-- Two words a sample. -/
@[simp] theorem length_wordsOfSamples (xs : List C32) : (wordsOfSamples xs).length = 2 * xs.length := by
  induction xs with
  | nil => rfl
  | cons x xs ih => simp [wordsOfSamples, ih]; omega

/-! ### The byte transport (20_memory.md R84) -/

theorem wordOfBytes_bytesOfWord (w : Word) :
    wordOfBytes (w.extractLsb' 0 8) (w.extractLsb' 8 8) (w.extractLsb' 16 8) (w.extractLsb' 24 8) = w := by
  apply BitVec.eq_of_getLsbD_eq
  intro i hi
  simp only [wordOfBytes, BitVec.getLsbD_append, BitVec.getLsbD_extractLsb']
  rcases Nat.lt_or_ge i 8 with h | h
  · simp [h]
  rcases Nat.lt_or_ge i 16 with h2 | h2
  · simp [show ¬ i < 8 by omega, show i - 8 < 8 by omega, show 8 + (i - 8) = i by omega]
  rcases Nat.lt_or_ge i 24 with h3 | h3
  · simp [show ¬ i < 8 by omega, show ¬ i - 8 < 8 by omega, show i - 8 - 8 < 8 by omega,
      show 16 + (i - 8 - 8) = i by omega]
  · simp [show ¬ i < 8 by omega, show ¬ i - 8 < 8 by omega, show ¬ i - 8 - 8 < 8 by omega,
      show i - 8 - 8 - 8 < 8 by omega, show 24 + (i - 8 - 8 - 8) = i by omega]

/-- A byte transport delivers the words that were sent, least significant byte first. -/
theorem wordsOfBytes_bytesOfWord (ws : List Word) : wordsOfBytes (ws.flatMap bytesOfWord) = ws := by
  induction ws with
  | nil => rfl
  | cons w ws ih => simp [bytesOfWord, wordsOfBytes, ih, wordOfBytes_bytesOfWord]

end Sys2Proof
end

