-- ==== Sys2Proof/Laws/Float.lean ====
section
/-! SUPPORT. The pieces of the sample arithmetic, said once: the two fields of a datum, what rounding can give, which
data are NaNs. -/

namespace Sys2Proof.Machine

/-- The magnitude bits of a datum made from them. -/
theorem magBits_ofSignMag (neg : Bool) {bits : Nat} (h : bits < 2 ^ 31) : magBits (ofSignMag neg bits) = bits := by
  unfold magBits ofSignMag
  rw [BitVec.toNat_ofNat]
  split <;> omega

/-- The sign of a datum made from it. -/
theorem signBit_ofSignMag (neg : Bool) {bits : Nat} (h : bits < 2 ^ 31) : signBit (ofSignMag neg bits) = neg := by
  unfold signBit ofSignMag
  rw [BitVec.msb_eq_decide, BitVec.toNat_ofNat]
  cases neg <;> simp <;> omega

/-- Rounding never gives more than the magnitude bits of an infinity. -/
theorem roundBits_le (n d : Nat) : roundBits n d ≤ 0x7F800000 := Nat.min_le_left _ _

/-- Rounding never gives a NaN (00_scope.md R10). -/
@[simp] theorem isNaN_roundUnits (neg : Bool) (n d : Nat) : isNaN (roundUnits neg n d) = false := by
  have := roundBits_le n d
  unfold isNaN roundUnits
  rw [magBits_ofSignMag _ (by omega)]
  simpa using this

/-- The sign of a rounded result. -/
@[simp] theorem signBit_roundUnits (neg : Bool) (n d : Nat) : signBit (roundUnits neg n d) = neg := by
  have := roundBits_le n d
  exact signBit_ofSignMag _ (by omega)

/-- What an invalid operation gives is a NaN, whatever its free pattern (00_scope.md R10; log 5). -/
@[simp] theorem isNaN_nanOf (op : FloatOp) (a b : F32) : isNaN (nanOf op a b) = true := by
  unfold isNaN nanOf
  rw [magBits_ofSignMag _ (by have := Nat.mod_lt (Config.nanPattern op a b).toNat (show 0 < 2 ^ 23 - 1 by omega); omega)]
  simp
  omega

@[simp] theorem isNaN_infOf (neg : Bool) : isNaN (infOf neg) = false := by cases neg <;> decide

@[simp] theorem isNaN_zeroOf (neg : Bool) : isNaN (zeroOf neg) = false := by cases neg <;> decide

/-- A datum is finite, an infinity or a NaN. -/
theorem finite_or_inf_or_nan (a : F32) : isFinite a = true ∨ isInf a = true ∨ isNaN a = true := by
  simp only [isFinite, isInf, isNaN, decide_eq_true_eq]
  omega

/-- Inverting the sign leaves the magnitude. -/
@[simp] theorem magBits_fneg (a : F32) : magBits (fneg a) = magBits a := by
  have h : (fneg a).setWidth 31 = a.setWidth 31 := by
    unfold fneg
    rw [BitVec.setWidth_xor]
    simp
  have := congrArg BitVec.toNat h
  simpa [magBits, BitVec.toNat_setWidth] using this

@[simp] theorem signBit_fneg (a : F32) : signBit (fneg a) = !signBit a := by
  rw [signBit, fneg, BitVec.msb_xor, show (0x80000000#32).msb = true by decide, Bool.xor_true, signBit]

@[simp] theorem isNaN_fneg (a : F32) : isNaN (fneg a) = isNaN a := by simp [isNaN]

@[simp] theorem isInf_fneg (a : F32) : isInf (fneg a) = isInf a := by simp [isInf]

@[simp] theorem isFinite_fneg (a : F32) : isFinite (fneg a) = isFinite a := by simp [isFinite]

@[simp] theorem isZero_fneg (a : F32) : isZero (fneg a) = isZero a := by simp [isZero]

/-- The value of the negation, in units. -/
@[simp] theorem units_fneg (a : F32) : units (fneg a) = -units a := by
  unfold units
  have : magUnits (fneg a) = magUnits a := by simp [magUnits]
  rw [this, signBit_fneg]
  cases signBit a <;> simp

end Sys2Proof.Machine
end

