-- ==== Sys2Proof/Laws/PerInstr.lean ====
section
/-! SUPPORT. A law of every instruction as syntax: its header alone fixes how many operand words its record has, and its
encoding has that many (30_encoding.md R103, R106). -/

namespace Sys2Proof.Laws.RecordLength

/-- The header of a well-formed instruction is legal and asks for exactly the operand words its encoding has. -/
def Statement (i : Instr) : Prop := i.wellFormed = true → operandWords i.header = some i.operands.length

/-- A header without SLOT and IMM fields. -/
theorem plain_zero (opc : BitVec 8) (n : Nat) : plainForm (headerWord opc 0 0) n = some n := by simp [plainForm]

/-- A header without a SLOT field. -/
theorem imm_any (opc : BitVec 8) (imm : BitVec 16) (n : Nat) : immForm (headerWord opc 0 imm) n = some n := by
  simp [immForm]

/-- A header whose reserved IMM bits are zero. -/
theorem slot_any (opc slot : BitVec 8) (imm zeroBits : BitVec 16) (n : Nat) (h : imm &&& zeroBits = 0#16) :
    slotForm (headerWord opc slot imm) zeroBits n = some n := by
  simp [slotForm, h]

theorem attach_reserved (consumer tap : Bool) : attachImm consumer tap &&& 0xFFFC#16 = 0#16 := by
  cases consumer <;> cases tap <;> decide

theorem psk_reserved (sps : BitVec 8) (ted : Bool) : pskImm sps ted &&& 0xFE00#16 = 0#16 := by
  apply BitVec.eq_of_getLsbD_eq
  intro i hi
  rcases Nat.lt_or_ge i 9 with h | h
  · interval_cases i <;> simp
  · rw [BitVec.getLsbD_and]
    have : (pskImm sps ted).getLsbD i = false := by
      simp only [pskImm, BitVec.getLsbD_append, show ¬ i < 8 by omega, if_false]
      cases ted
      · simp
      · simp; omega
    simp [this]

/-- A block's IMM field asks for two words a sample. -/
theorem block_words (opc slot : BitVec 8) {x : List C32} (h : x.length < 65536) :
    blockWords (headerWord opc slot (blockImm x)) = (wordsOfSamples x).length := by
  simp [blockWords, blockImm, Nat.mod_eq_of_lt h]

theorem sysNop : Statement .sysNop := fun _ => by
  simp only [operandWords, Instr.header, opcOf_headerWord]
  exact plain_zero _ _

theorem sysReset : Statement .sysReset := fun _ => by
  simp only [operandWords, Instr.header, opcOf_headerWord]
  exact plain_zero _ _

theorem sysStatus : Statement .sysStatus := fun _ => by
  simp only [operandWords, Instr.header, opcOf_headerWord]
  exact plain_zero _ _

theorem sysInfo : Statement .sysInfo := fun _ => by
  simp only [operandWords, Instr.header, opcOf_headerWord]
  exact plain_zero _ _

theorem fcGetfreq : Statement .fcGetfreq := fun _ => by
  simp only [operandWords, Instr.header, opcOf_headerWord]
  exact plain_zero _ _

theorem fcSetfreq (f : BitVec 64) : Statement (.fcSetfreq f) := fun _ => by
  simp only [operandWords, Instr.header, opcOf_headerWord]
  exact plain_zero _ _

theorem fcGetrate : Statement .fcGetrate := fun _ => by
  simp only [operandWords, Instr.header, opcOf_headerWord]
  exact plain_zero _ _

theorem fcSetrate (rate : Word) : Statement (.fcSetrate rate) := fun _ => by
  simp only [operandWords, Instr.header, opcOf_headerWord]
  exact plain_zero _ _

theorem fcSetppm (ppm : Word) : Statement (.fcSetppm ppm) := fun _ => by
  simp only [operandWords, Instr.header, opcOf_headerWord]
  exact plain_zero _ _

theorem fcSetbounds (min max : BitVec 64) : Statement (.fcSetbounds min max) := fun _ => by
  simp only [operandWords, Instr.header, opcOf_headerWord]
  exact plain_zero _ _

theorem fcSetblackout (bw : Word) : Statement (.fcSetblackout bw) := fun _ => by
  simp only [operandWords, Instr.header, opcOf_headerWord]
  exact plain_zero _ _

theorem fcSetusable (num den : Word) : Statement (.fcSetusable num den) := fun _ => by
  simp only [operandWords, Instr.header, opcOf_headerWord]
  exact plain_zero _ _

theorem fcGetstate : Statement .fcGetstate := fun _ => by
  simp only [operandWords, Instr.header, opcOf_headerWord]
  exact plain_zero _ _

theorem fcListen (mask : BitVec 16) : Statement (.fcListen mask) := fun _ => by
  simp only [operandWords, Instr.header, opcOf_headerWord]
  exact imm_any _ _ _

theorem allocGetsource (r : BitVec 16) (freq : BitVec 64) (bw pass stop : Word) : Statement (.allocGetsource r freq bw pass stop) := fun _ => by
  simp only [operandWords, Instr.header, opcOf_headerWord]
  exact imm_any _ _ _

theorem allocRelease (freq : BitVec 64) : Statement (.allocRelease freq) := fun _ => by
  simp only [operandWords, Instr.header, opcOf_headerWord]
  exact plain_zero _ _

theorem allocQuery (index : BitVec 16) : Statement (.allocQuery index) := fun _ => by
  simp only [operandWords, Instr.header, opcOf_headerWord]
  exact imm_any _ _ _

theorem srcStart (slot : BitVec 8) : Statement (.srcStart slot) := fun _ => by
  simp only [operandWords, Instr.header, opcOf_headerWord]
  exact slot_any _ _ _ _ _ rfl

theorem srcStop (slot : BitVec 8) : Statement (.srcStop slot) := fun _ => by
  simp only [operandWords, Instr.header, opcOf_headerWord]
  exact slot_any _ _ _ _ _ rfl

theorem srcDrain (slot : BitVec 8) : Statement (.srcDrain slot) := fun _ => by
  simp only [operandWords, Instr.header, opcOf_headerWord]
  exact slot_any _ _ _ _ _ rfl

theorem srcFeed (x : List C32) : Statement (.srcFeed x) := fun h => by
  simp only [operandWords, Instr.header, opcOf_headerWord]
  exact (imm_any _ _ _).trans (congrArg some (block_words _ _ (of_decide_eq_true h)))

theorem srcStatus (slot : BitVec 8) : Statement (.srcStatus slot) := fun _ => by
  simp only [operandWords, Instr.header, opcOf_headerWord]
  exact slot_any _ _ _ _ _ rfl

theorem srcAttach (slot : BitVec 8) (consumer tap : Bool) : Statement (.srcAttach slot consumer tap) := fun _ => by
  simp only [operandWords, Instr.header, opcOf_headerWord]
  exact slot_any _ _ _ _ _ (attach_reserved _ _)

theorem srcSetcorr (slot : BitVec 8) (corr : Word) : Statement (.srcSetcorr slot corr) := fun _ => by
  simp only [operandWords, Instr.header, opcOf_headerWord]
  exact slot_any _ _ _ _ _ rfl

theorem mixSetfreq (slot : BitVec 8) (f : BitVec 64) (rate : Word) : Statement (.mixSetfreq slot f rate) := fun _ => by
  simp only [operandWords, Instr.header, opcOf_headerWord]
  exact slot_any _ _ _ _ _ rfl

theorem mixNext (slot : BitVec 8) : Statement (.mixNext slot) := fun _ => by
  simp only [operandWords, Instr.header, opcOf_headerWord]
  exact slot_any _ _ _ _ _ rfl

theorem mixStep (slot : BitVec 8) (x : C32) : Statement (.mixStep slot x) := fun _ => by
  simp only [operandWords, Instr.header, opcOf_headerWord]
  exact slot_any _ _ _ _ _ rfl

theorem mixGetstate (slot : BitVec 8) : Statement (.mixGetstate slot) := fun _ => by
  simp only [operandWords, Instr.header, opcOf_headerWord]
  exact slot_any _ _ _ _ _ rfl

theorem cicCfg (slot : BitVec 8) (r : BitVec 16) (rate pass stop : Word) : Statement (.cicCfg slot r rate pass stop) := fun _ => by
  simp only [operandWords, Instr.header, opcOf_headerWord]
  exact rfl

theorem cicPush (slot : BitVec 8) (x : C32) : Statement (.cicPush slot x) := fun _ => by
  simp only [operandWords, Instr.header, opcOf_headerWord]
  exact slot_any _ _ _ _ _ rfl

theorem cicPushblk (slot : BitVec 8) (x : List C32) : Statement (.cicPushblk slot x) := fun h => by
  simp only [operandWords, Instr.header, opcOf_headerWord]
  exact congrArg some (block_words _ _ (of_decide_eq_true h))

theorem cicGetcfg (slot : BitVec 8) (k : BitVec 16) : Statement (.cicGetcfg slot k) := fun _ => by
  simp only [operandWords, Instr.header, opcOf_headerWord]
  exact rfl

theorem pskCfg (slot : BitVec 8) (sps : BitVec 8) (ted : Bool) (alpha beta fmax gainmu gainomega : F32) : Statement (.pskCfg slot sps ted alpha beta fmax gainmu gainomega) := fun _ => by
  simp only [operandWords, Instr.header, opcOf_headerWord]
  exact slot_any _ _ _ _ _ (psk_reserved _ _)

theorem pskStep (slot : BitVec 8) (x : C32) : Statement (.pskStep slot x) := fun _ => by
  simp only [operandWords, Instr.header, opcOf_headerWord]
  exact slot_any _ _ _ _ _ rfl

theorem pskStepblk (slot : BitVec 8) (x : List C32) : Statement (.pskStepblk slot x) := fun h => by
  simp only [operandWords, Instr.header, opcOf_headerWord]
  exact congrArg some (block_words _ _ (of_decide_eq_true h))

theorem pskGetstate (slot : BitVec 8) : Statement (.pskGetstate slot) := fun _ => by
  simp only [operandWords, Instr.header, opcOf_headerWord]
  exact slot_any _ _ _ _ _ rfl

end Sys2Proof.Laws.RecordLength
end

