-- ==== Sys2Proof/Machine/Asm.lean ====
section
/-! DEFINITION. The text form of commands (30_encoding.md R112) and its pseudo-instructions (R113): a line of text to the
command it stands for. Nothing in the machine reads text; the environment writes its records from it. -/

namespace Sys2Proof.Machine

/-! ### Numbers -/

/-- A decimal digit. -/
def decDigit (c : Char) : Option Nat :=
  if '0' ≤ c ∧ c ≤ '9' then some (c.toNat - '0'.toNat) else none

/-- A hexadecimal digit. -/
def hexDigit (c : Char) : Option Nat :=
  if 'a' ≤ c ∧ c ≤ 'f' then some (c.toNat - 'a'.toNat + 10)
  else if 'A' ≤ c ∧ c ≤ 'F' then some (c.toNat - 'A'.toNat + 10)
  else decDigit c

/-- Digits in a base, most significant first. -/
def digitsFrom (base : Nat) (digit : Char → Option Nat) (cs : List Char) (start : Nat) : Option Nat :=
  cs.foldlM (fun acc c => (digit c).map (base * acc + ·)) start

/-- An unsigned integer: decimal, or hexadecimal with `0x` (R112). -/
def readNat : List Char → Option Nat
  | [] => none
  | ['0', 'x'] => none
  | '0' :: 'x' :: cs => digitsFrom 16 hexDigit cs 0
  | cs => digitsFrom 10 decDigit cs 0

/-- An integer with an optional sign (R112). -/
def readInt : List Char → Option Int
  | '-' :: cs => (readNat cs).map fun n => -(n : Int)
  | cs => (readNat cs).map fun n => (n : Int)

/-- An unsigned field of `w` bits. -/
def readUnsigned (w : Nat) (cs : List Char) : Option (BitVec w) :=
  (readNat cs).bind fun n => if n < 2 ^ w then some (BitVec.ofNat w n) else none

/-- A signed operand of `w` bits. -/
def readSigned (w : Nat) (cs : List Char) : Option (BitVec w) :=
  (readInt cs).bind fun v => if (BitVec.ofInt w v).toInt = v then some (BitVec.ofInt w v) else none

/-- A flag, `0` or `1`. -/
def readFlag : List Char → Option Bool
  | ['0'] => some false
  | ['1'] => some true
  | _ => none

/-- The datum of the magnitude `n / 10^k`, if there is one: a decimal literal must be exactly representable (R112). -/
def exactDatum (neg : Bool) (n k : Nat) : Option F32 :=
  let a := roundUnits neg (n * 2 ^ 149) (10 ^ k)
  if isFinite a ∧ magUnits a * 10 ^ k = n * 2 ^ 149 then some a else none

/-- The magnitude of a decimal literal: digits, and after a point more digits. -/
def readDecimal (neg : Bool) (cs : List Char) : Option F32 :=
  let whole := cs.takeWhile (· ≠ '.')
  let part := (cs.dropWhile (· ≠ '.')).drop 1
  if whole = [] ∨ (part = [] ∧ whole ≠ cs) then none
  else (digitsFrom 10 decDigit (whole ++ part) 0).bind fun n => exactDatum neg n part.length

/-- An `F32` operand: an exact decimal literal, or `0f` and eight hexadecimal digits (R112). -/
def readF32 : List Char → Option F32
  | '0' :: 'f' :: cs => if cs.length = 8 then (digitsFrom 16 hexDigit cs 0).map (BitVec.ofNat 32) else none
  | '-' :: cs => readDecimal true cs
  | cs => readDecimal false cs

/-! ### Lists of fields -/

/-- Text cut at the commas outside every bracket; the first arguments are the open brackets and the piece read so
far, backwards. -/
def cutFrom : Nat → List Char → List Char → List (List Char)
  | _, piece, [] => [piece.reverse]
  | depth, piece, c :: cs =>
    if c = ',' ∧ depth = 0 then piece.reverse :: cutFrom 0 [] cs
    else if c = '(' ∨ c = '[' then cutFrom (depth + 1) (c :: piece) cs
    else if c = ')' ∨ c = ']' then cutFrom (depth - 1) (c :: piece) cs
    else cutFrom depth (c :: piece) cs

/-- The comma-separated fields of a text; no field in an empty text. -/
def fieldsOf (cs : List Char) : List (List Char) := if cs = [] then [] else cutFrom 0 [] cs

/-- The inside of a text that a pair of brackets encloses. -/
def inside (opening closing : Char) (cs : List Char) : Option (List Char) :=
  if cs.head? = some opening ∧ cs.getLast? = some closing ∧ 2 ≤ cs.length then some cs.tail.dropLast else none

/-- A `C32` operand, `(i, q)` (R112). -/
def readC32 (cs : List Char) : Option C32 :=
  (inside '(' ')' cs).bind fun body =>
    match fieldsOf body with
    | [i, q] => do some ⟨← readF32 i, ← readF32 q⟩
    | _ => none

/-- A `C32[n]` operand, `[(i, q), ...]` (R112). -/
def readSamples (cs : List Char) : Option (List C32) :=
  (inside '[' ']' cs).bind fun body => (fieldsOf body).mapM readC32

/-- The value of a field `name=value` of that name (R112). -/
def valueIn (name : String) (field : List Char) : Option (List Char) :=
  if (name.toList ++ ['=']).isPrefixOf field then some (field.drop (name.toList.length + 1)) else none

/-- The SLOT field, `s<number>` (R112). -/
def slotIn : List Char → Option (BitVec 8)
  | 's' :: cs => readUnsigned 8 cs
  | _ => none

/-- A U32 operand of that name. -/
def wordIn (name : String) (f : List Char) : Option Word := (valueIn name f).bind (readUnsigned 32)

/-- An immediate of that name. -/
def immIn (name : String) (f : List Char) : Option (BitVec 16) := (valueIn name f).bind (readUnsigned 16)

/-- An S64 operand of that name. -/
def longIn (name : String) (f : List Char) : Option (BitVec 64) := (valueIn name f).bind (readSigned 64)

/-- An S32 operand of that name. -/
def signedIn (name : String) (f : List Char) : Option Word := (valueIn name f).bind (readSigned 32)

/-- A flag of that name. -/
def flagIn (name : String) (f : List Char) : Option Bool := (valueIn name f).bind readFlag

/-- An F32 operand of that name. -/
def floatIn (name : String) (f : List Char) : Option F32 := (valueIn name f).bind readF32

/-- The sample of a command. -/
def sampleIn (f : List Char) : Option C32 := (valueIn "x" f).bind readC32

/-- The samples of a block command; the assembler fills IMM with their number (R112). -/
def samplesIn (f : List Char) : Option (List C32) :=
  ((valueIn "x" f).bind readSamples).filter fun x => x.length < 65536

/-! ### Lines -/

/-- The command of a mnemonic without a SLOT field and its fields, in the order of R106. -/
def assembleControl : String → List (List Char) → Option Instr
  | "SYS.NOP", [] => some .sysNop
  | "SYS.RESET", [] => some .sysReset
  | "SYS.STATUS", [] => some .sysStatus
  | "SYS.INFO", [] => some .sysInfo
  | "FC.GETFREQ", [] => some .fcGetfreq
  | "FC.SETFREQ", [f] => (longIn "f" f).map .fcSetfreq
  | "FC.GETRATE", [] => some .fcGetrate
  | "FC.SETRATE", [rate] => (wordIn "rate" rate).map .fcSetrate
  | "FC.SETPPM", [ppm] => (signedIn "ppm" ppm).map .fcSetppm
  | "FC.SETBOUNDS", [min, max] => do some (.fcSetbounds (← longIn "min" min) (← longIn "max" max))
  | "FC.SETBLACKOUT", [bw] => (wordIn "bw" bw).map .fcSetblackout
  | "FC.SETUSABLE", [num, den] => do some (.fcSetusable (← wordIn "num" num) (← wordIn "den" den))
  | "FC.GETSTATE", [] => some .fcGetstate
  | "FC.LISTEN", [mask] => (immIn "mask" mask).map .fcListen
  | "ALLOC.GETSOURCE", [r, freq, bw, pass, stop] => do
      some (.allocGetsource (← immIn "R" r) (← longIn "freq" freq) (← wordIn "bw" bw) (← wordIn "pass" pass)
        (← wordIn "stop" stop))
  | "ALLOC.RELEASE", [freq] => (longIn "freq" freq).map .allocRelease
  | "ALLOC.QUERY", [index] => (immIn "index" index).map .allocQuery
  | "SRC.FEED", [x] => (samplesIn x).map .srcFeed
  | "NOP", [] => some pseudoNop
  | "FC.SETUSABLEPCT", [p] => (readUnsigned 32 p).map pseudoSetusablepct
  | "FC.UNLISTEN", [] => some pseudoUnlisten
  | _, _ => none

/-- The command of a mnemonic with a SLOT field, its slot and its further fields, in the order of R106. -/
def assembleSlot (k : BitVec 8) : String → List (List Char) → Option Instr
  | "SRC.START", [] => some (.srcStart k)
  | "SRC.STOP", [] => some (.srcStop k)
  | "SRC.DRAIN", [] => some (.srcDrain k)
  | "SRC.STATUS", [] => some (.srcStatus k)
  | "SRC.ATTACH", [consumer, tap] => do some (.srcAttach k (← flagIn "consumer" consumer) (← flagIn "tap" tap))
  | "SRC.SETCORR", [corr] => (signedIn "corr" corr).map (.srcSetcorr k)
  | "MIX.SETFREQ", [f, rate] => do some (.mixSetfreq k (← longIn "f" f) (← wordIn "rate" rate))
  | "MIX.NEXT", [] => some (.mixNext k)
  | "MIX.STEP", [x] => (sampleIn x).map (.mixStep k)
  | "MIX.GETSTATE", [] => some (.mixGetstate k)
  | "CIC.CFG", [r, rate, pass, stop] => do
      some (.cicCfg k (← immIn "R" r) (← wordIn "rate" rate) (← wordIn "pass" pass) (← wordIn "stop" stop))
  | "CIC.PUSH", [x] => (sampleIn x).map (.cicPush k)
  | "CIC.PUSHBLK", [x] => (samplesIn x).map (.cicPushblk k)
  | "CIC.GETCFG", [index] => (immIn "k" index).map (.cicGetcfg k)
  | "PSK.CFG", [sps, ted, alpha, beta, fmax, gainmu, gainomega] => do
      some (.pskCfg k (← (valueIn "SPS" sps).bind (readUnsigned 8)) (← flagIn "TED" ted) (← floatIn "alpha" alpha)
        (← floatIn "beta" beta) (← floatIn "fmax" fmax) (← floatIn "gainmu" gainmu) (← floatIn "gainomega" gainomega))
  | "PSK.STEP", [x] => (sampleIn x).map (.pskStep k)
  | "PSK.STEPBLK", [x] => (samplesIn x).map (.pskStepblk k)
  | "PSK.GETSTATE", [] => some (.pskGetstate k)
  | "CIC.PUSH0", [] => some (pseudoPush0 k)
  | "SRC.DETACH", [] => some (pseudoDetach k)
  | _, _ => none

/-- A line of text: `#` starts a comment, the mnemonic comes first, then the fields (R112). `none` for text that is
no command. -/
def assemble (line : String) : Option Instr :=
  let text := (line.toList.takeWhile (· ≠ '#')).dropWhile (· = ' ')
  let mnemonic := String.ofList (text.takeWhile (· ≠ ' '))
  let fields := fieldsOf ((text.dropWhile (· ≠ ' ')).filter (· ≠ ' '))
  match assembleControl mnemonic fields with
  | some i => some i
  | none =>
    match fields with
    | [] => none
    | k :: rest => (slotIn k).bind fun k => assembleSlot k mnemonic rest

end Sys2Proof.Machine
end

