-- ==== Sys2Proof/Tests/Slice0.lean ====
section
/-! SUPPORT. Tests. Expected values are those of 95_test_vectors.md (its vectors and programs are named in the comments)
or are worked out by hand from the rule named; one step each, on small states. After them, for every statement with
hypotheses, a concrete state and operands that meet them. -/

set_option Elab.async false

namespace Sys2Proof.Tests

open Sys2Proof Sys2Proof.Machine

/-! ### WellFormed refuses each ill-formed term -/

/-- The longest block with an encoding. -/
def longest : List C32 := List.replicate 65535 C32.zero

/-- A block whose length has no IMM field. -/
def tooLong : List C32 := List.replicate 65536 C32.zero

theorem length_longest : longest.length = 65535 := List.length_replicate ..

theorem length_tooLong : tooLong.length = 65536 := List.length_replicate ..

theorem test_feed_of_65536_samples_is_refused : (Instr.srcFeed tooLong).wellFormed = false := by
  rw [Instr.wellFormed, blockFits, length_tooLong]; rfl

theorem test_pushblk_of_65536_samples_is_refused : (Instr.cicPushblk 0 tooLong).wellFormed = false := by
  rw [Instr.wellFormed, blockFits, length_tooLong]; rfl

theorem test_stepblk_of_65536_samples_is_refused : (Instr.pskStepblk 0 tooLong).wellFormed = false := by
  rw [Instr.wellFormed, blockFits, length_tooLong]; rfl

/-! ### Decoding of written-out words: every row of 30_encoding.md R106 (V-ENC-1, V-ENC-4, the programs) -/

theorem test_decode_sys :
    decode [0x00000000#32] = .command .sysNop [] ∧ decode [0x01000000#32] = .command .sysReset [] ∧
    decode [0x02000000#32] = .command .sysStatus [] ∧ decode [0x03000000#32] = .command .sysInfo [] := by decide

theorem test_decode_fc_getters :
    decode [0x10000000#32] = .command .fcGetfreq [] ∧ decode [0x12000000#32] = .command .fcGetrate [] ∧
    decode [0x18000000#32] = .command .fcGetstate [] ∧ decode [0x19000003#32] = .command (.fcListen 3) [] := by decide

theorem test_decode_fc_setters :
    decode [0x11000000#32, 0x05F5E100#32, 0#32, 0x7#32] = .command (.fcSetfreq 100000000) [0x7#32] ∧
    decode [0x13000000#32, 0x00030D40#32] = .command (.fcSetrate 200000) [] ∧
    decode [0x14000000#32, 0xFFFFFFF6#32] = .command (.fcSetppm (-10)) [] ∧
    decode [0x15000000#32, 0x000186A0#32, 0#32, 0x77359400#32, 0#32] =
      .command (.fcSetbounds 100000 2000000000) [] ∧
    decode [0x16000000#32, 0x000007D0#32] = .command (.fcSetblackout 2000) [] ∧
    decode [0x17000000#32, 0x1#32, 0x2#32] = .command (.fcSetusable 1 2) [] := by decide

theorem test_decode_alloc :
    decode [0x20000008#32, 0x000F4240#32, 0#32, 0x2710#32, 0x1388#32, 0x186A#32] =
      .command (.allocGetsource 8 1000000 10000 5000 6250) [] ∧
    decode [0x21000000#32, 0x000004D2#32, 0#32] = .command (.allocRelease 1234) [] ∧
    decode [0x22000001#32] = .command (.allocQuery 1) [] := by decide

theorem test_decode_src :
    decode [0x30020000#32] = .command (.srcStart 2) [] ∧ decode [0x31000000#32] = .command (.srcStop 0) [] ∧
    decode [0x32000000#32] = .command (.srcDrain 0) [] ∧
    decode [0x33000002#32, 0x3F800000#32, 0#32, 0#32, 0x3F800000#32] =
      .command (.srcFeed [⟨0x3F800000#32, 0#32⟩, ⟨0#32, 0x3F800000#32⟩]) [] ∧
    decode [0x34000000#32] = .command (.srcStatus 0) [] ∧
    decode [0x35000001#32] = .command (.srcAttach 0 true false) [] ∧
    decode [0x36000000#32, 0x1#32] = .command (.srcSetcorr 0 1) [] := by decide

theorem test_decode_mix :
    decode [0x40030000#32, 0x00002EE0#32, 0#32, 0x0000BB80#32] = .command (.mixSetfreq 3 12000 48000) [] ∧
    decode [0x41000000#32] = .command (.mixNext 0) [] ∧
    decode [0x42000000#32, 0x3F800000#32, 0xC0000000#32] =
      .command (.mixStep 0 ⟨0x3F800000#32, 0xC0000000#32⟩) [] ∧
    decode [0x43010000#32] = .command (.mixGetstate 1) [] := by decide

theorem test_decode_cic :
    decode [0x50000006#32, 0x0000BB80#32, 0x00000BB8#32, 0x00000FA0#32] = .command (.cicCfg 0 6 48000 3000 4000) [] ∧
    decode [0x51020000#32, 0#32, 0#32] = .command (.cicPush 2 C32.zero) [] ∧
    decode [0x52000001#32, 0x41C80000#32, 0xC1C80000#32] =
      .command (.cicPushblk 0 [⟨0x41C80000#32, 0xC1C80000#32⟩]) [] ∧
    decode [0x53020001#32] = .command (.cicGetcfg 2 1) [] := by decide

theorem test_decode_psk :
    decode [0x6001010A#32, 0#32, 0#32, 0#32, 0x3E800000#32, 0x3F000000#32] =
      .command (.pskCfg 1 10 true 0#32 0#32 0#32 0x3E800000#32 0x3F000000#32) [] ∧
    decode [0x61010000#32, 0x41500000#32, 0#32] = .command (.pskStep 1 ⟨0x41500000#32, 0#32⟩) [] ∧
    decode [0x62010001#32, 0x41500000#32, 0#32] = .command (.pskStepblk 1 [⟨0x41500000#32, 0#32⟩]) [] ∧
    decode [0x63010000#32] = .command (.pskGetstate 1) [] := by decide

/-- V-ENC-2. -/
theorem test_illegal_headers :
    ([0x00000001#32, 0x04000000#32, 0x1A000000#32, 0x10010000#32, 0x23000000#32, 0x37000000#32, 0x33010001#32,
      0x35000004#32, 0x60000204#32, 0x41000001#32, 0x70000000#32, 0xFFFFFFFF#32] : List Word).all
      (fun h => decode [h, 0#32] = .illegal h [0#32]) = true := by decide +kernel

/-- 20_memory.md R85, and the length of V-ENC-1's longest block. -/
theorem test_record_lengths :
    decode [0x51000000#32, 0#32] = .cutShort ∧ operandWords 0x6203FFFF#32 = some 131070 ∧
    operandWords 0x33000000#32 = some 0 := by decide +kernel

theorem test_table_word :
    decodeTableWord 32 0x52010001 = some (.cicPushblk 1 [C32.zero]) ∧ decodeTableWord 32 0x70000000 = none ∧
    decodeTableWord 64 0x00030D4013000000 = some (.fcSetrate 200000) := by decide +kernel

/-- R112, R113: the examples of the assembler syntax (V-ENC-4). -/
theorem test_assemble :
    (assemble "CIC.CFG s0, R=6, rate=48000, pass=3000, stop=4000").map encode =
      some [0x50000006#32, 0x0000BB80#32, 0x00000BB8#32, 0x00000FA0#32] ∧
    (assemble "FC.SETUSABLEPCT 50").map encode = some [0x17000000#32, 0x32#32, 0x64#32] ∧
    (assemble "CIC.PUSH0 s2  # flush").map encode = some [0x51020000#32, 0#32, 0#32] ∧
    (assemble "SRC.FEED x=[(1,0), (0,-1.5)]").map encode =
      some [0x33000002#32, 0x3F800000#32, 0#32, 0#32, 0xBFC00000#32] ∧
    assemble "CIC.PUSH s0, x=(0.1, 0)" = none := by decide +kernel

/-! ### Small states -/

/-- The last response a command gives. -/
def answerOf (i : Instr) (s : State) : List Word := (after i s).resp.getLastD []

/-- The reset state with slot 0 replaced. -/
def with0 (sl : Slot) : State := State.reset.setSlot 0 sl

/-- Slot 0 in a source state. -/
def in0 (st : SrcState) : State := with0 { Slot.reset with src := { Src.reset with state := st } }

/-- A channel's slot as P1 leaves it, as far as the tests need it: the source, its mixer. -/
def source (freq : BitVec 64) (inc : Word) : Slot :=
  { Slot.reset with
    src := { Src.reset with state := .idle, chFreq := freq, chBw := 10000 }
    mix := { phase := 0, inc := inc, cfgd := true } }

/-- The end state of program P1, less the decimators. -/
def p1 : State :=
  { State.reset with
    fc := { freq := 1007001, tuned := 1007001, freqValid := true, min := 100000, max := 2000000000, ppm := 0,
            rate := 200000, blackout := 2000, ufNum := 1, ufDen := 2, locked := true, listenMask := 1 }
    active := [⟨1000000, 10000, 0⟩, ⟨1050000, 10000, 1⟩]
    cache := [⟨200000, 8, [fONE]⟩]
    slots := [source 1000000 0x08F61672#32, source 1050000 0xC8F61672#32, Slot.reset, Slot.reset] }

/-- P1 before its first allocation: a tuner set up, nothing active; the design of P1 cached. -/
def boot : State :=
  { p1 with fc := { p1.fc with freq := 0, tuned := 0, freqValid := false, locked := false }, active := [],
            slots := State.reset.slots }

/-- A mixer at a quarter turn a sample (V-MIX-2). -/
def mixer (phase : Word) : State := with0 { Slot.reset with mix := ⟨phase, 0x40000000#32, true⟩ }

/-- A decimator of ratio 2 whose cleanup filter is the identity, with a consumer. -/
def decimator : State :=
  with0 { Slot.reset with
    src := { Src.reset with consumer := true }
    cic := cicInit .default 48000 2 6000 12000 [2] [fONE] }

/-- The early-late loop of V-PSK-2 on slot 0. -/
def loop : State :=
  with0 { Slot.reset with psk := pskInit 4 true 0#32 0#32 0#32 0x3E800000#32 0x3F000000#32 }

/-- A ramp of samples (1, 0), (2, 0), ... -/
def ramp (n : Nat) : List C32 := (List.range n).map fun k => ⟨i2f (k + 1), 0#32⟩

/-! ### SYS -/

theorem test_nop : after .sysNop p1 = { p1 with resp := [[0#32]] } := by decide +kernel

/-- V-SYS-2. -/
theorem test_reset : after .sysReset p1 = { State.reset with resp := [[0#32]] } := by decide +kernel

/-- V-SYS-1. -/
theorem test_status :
    after .sysStatus { State.reset with err := ⟨0x05#8, 0x51000000#32, 2#32⟩ } =
      { State.reset with err := ⟨0#8, 0#32, 2#32⟩, resp := [[0x300#32, 0x5#32, 0x51000000#32, 0x2#32]] } := by
  decide +kernel

/-- V-ENC-5. -/
theorem test_info :
    answerOf .sysInfo State.reset =
      [0x800#32, 0x1#32, 0x4#32, 0x1#32, 0x4#32, 0x4#32, 0x2#32, 0x8#32, 0x2#32] := by decide +kernel

/-! ### FC -/

/-- P1 step 10. -/
theorem test_getfreq : answerOf .fcGetfreq p1 = [0x200#32, 0x000F5D99#32, 0#32] := by decide +kernel

/-- V-FC-2: after reset only frequency 0 is in range. -/
theorem test_setfreq_range : answerOf (.fcSetfreq 1) State.reset = [0x31#32] := by decide +kernel

/-- V-FC-2. -/
theorem test_setfreq_zero :
    (after (.fcSetfreq 0) State.reset).fc.freqValid = true ∧
    (after (.fcSetfreq 0) State.reset).ports.dev = [.setFreq 0] := by decide +kernel

theorem test_getrate : answerOf .fcGetrate p1 = [0x100#32, 0x00030D40#32] := by decide +kernel

/-- V-FC-3: the lock test comes before the operand test. -/
theorem test_setrate_locked : answerOf (.fcSetrate 0) p1 = [0x30#32] := by decide +kernel

theorem test_setrate_tells_device :
    (after (.fcSetrate 48000) State.reset).fc.rate = 48000#32 ∧
    (after (.fcSetrate 48000) State.reset).ports.dev = [.setRate 48000#32] := by decide +kernel

/-- V-FC-7. -/
theorem test_setppm_while_locked :
    let t := after (.fcSetppm 2) p1
    t.fc.tuned = 1006999#64 ∧ t.fc.freq = 1007001#64 ∧ t.ports.dev = [.setFreq 1006999] ∧
    t.ports.evt = [[⟨1007001, 1006999⟩], []] ∧ t.slots.map (·.mix.inc) = p1.slots.map (·.mix.inc) := by
  decide +kernel

/-- V-FC-1. -/
theorem test_resolve :
    resolve .default 100000000 10 = 99999000 ∧ resolve .default 1007001 (-3) = 1007004 ∧
    resolve .default 950000 10 = 949991 ∧ resolve .default 3 1000000 = 2 ∧
    resolve .default 5 (-999999) = 5000000 := by decide +kernel

/-- V-FC-5. -/
theorem test_setbounds :
    answerOf (.fcSetbounds 5 1) State.reset = [0x06#32] ∧ answerOf (.fcSetbounds (-1) 1) State.reset = [0x06#32] ∧
    (after (.fcSetbounds 5 7) State.reset).fc.max = 7#64 := by decide +kernel

/-- V-FC-5, with a valid frequency. -/
theorem test_setbounds_keeps_tuned_in_range :
    let s := { p1 with fc := { p1.fc with locked := false } }
    answerOf (.fcSetbounds 0 1007000) s = [0x31#32] ∧ answerOf (.fcSetbounds 0 1007001) s = [0#32] := by
  decide +kernel

theorem test_setblackout : (after (.fcSetblackout 2000) boot).fc.blackout = 2000#32 := by decide +kernel

/-- V-FC-5. -/
theorem test_setusable :
    answerOf (.fcSetusable 3 2) boot = [0x06#32] ∧ answerOf (.fcSetusable 0 0) boot = [0x06#32] ∧
    (after (.fcSetusable 1 3) boot).fc.usable = 66666 ∧ (after (.fcSetusable 1 3) boot).fc.halfwin = 33333 := by
  decide +kernel

/-- V-FC-6. -/
theorem test_getstate :
    answerOf .fcGetstate p1 =
      [0xC00#32, 0x3#32, 0x000F5D99#32, 0#32, 0#32, 0x000186A0#32, 0#32, 0x77359400#32, 0#32, 0x7D0#32, 0x1#32,
        0x2#32, 0x1#32] := by decide +kernel

/-- V-FC-5. -/
theorem test_listen :
    (after (.fcListen 3) State.reset).fc.listenMask = 3#16 ∧ answerOf (.fcListen 4) State.reset = [0x06#32] := by
  decide +kernel

/-! ### ALLOC -/

/-- P1 steps 7 and 8: placement, retune, the slot's registers. -/
theorem test_getsource :
    let t := after (.allocGetsource 8 1000000 10000 5000 6250) boot
    t.resp = [[0x100#32, 0#32]] ∧ t.fc.freq = 993001#64 ∧ t.fc.locked = true ∧
    t.ports.dev = [.setFreq 993001] ∧ (t.slot 0).mix.inc = 0xF70A9153#32 ∧
    (t.slot 0).cic.ds.map (·.fact) = [2#16, 2#16, 2#16] := by decide +kernel

/-- P1 step 9 and V-ALLOC-6. -/
theorem test_getsource_refusals :
    answerOf (.allocGetsource 8 1200000 10000 5000 6250) p1 = [0x20#32] ∧
    answerOf (.allocGetsource 8 (-1) 0 0 0) State.reset = [0x05#32] ∧
    answerOf (.allocGetsource 8 (-1) 0 0 0) p1 = [0x06#32] ∧
    answerOf (.allocGetsource 0 1000000 0 0 0) p1 = [0x21#32] ∧
    answerOf (.allocGetsource 0 1030000 4000 0 0) p1 = [0x10#32] := by decide +kernel

/-- V-ALLOC-1 to V-ALLOC-5. -/
theorem test_place :
    place 50000 2000 [⟨1000000, 10000, 0⟩] = some 993001 ∧
    place 50000 0 [⟨1000000, 50002, 0⟩] = none ∧
    place 50000 2000 [⟨1000000, 10000, 0⟩, ⟨1050000, 10000, 1⟩] = some 1007001 ∧
    place 50000 2000 [⟨1000000, 10000, 0⟩, ⟨1010000, 4000, 2⟩, ⟨1050000, 10000, 1⟩] = some 1014001 ∧
    place 200000 2000 [⟨1000000, 100000, 0⟩, ⟨1010000, 10000, 1⟩] = none ∧
    place 50000 2000 [⟨1000000, 60000, 0⟩, ⟨1060000, 10000, 1⟩] = none := by decide +kernel

/-- V-ALLOC-7. -/
theorem test_release :
    after (.allocRelease 1234) p1 = { p1 with resp := [[0x100#32, 0#32]] } ∧
    (after (.allocRelease 1000000) p1).active = [⟨1050000, 10000, 1⟩] ∧
    ((after (.allocRelease 1000000) p1).slot 0).src.state = .stopped ∧
    (after (.allocRelease 1000000) p1).fc = p1.fc := by decide +kernel

/-- P1 step 11, and past the end (R289). -/
theorem test_query :
    answerOf (.allocQuery 1) p1 = [0x500#32, 0x2#32, 0x00100590#32, 0#32, 0x2710#32, 0x1#32] ∧
    answerOf (.allocQuery 2) p1 = [0x500#32, 0x2#32, 0#32, 0#32, 0#32, 0#32] := by decide +kernel

/-! ### SRC (V-SRC-2 to V-SRC-5) -/

theorem test_start :
    [SrcState.free, .idle, .running, .stopped].map (fun st => answerOf (.srcStart 0) (in0 st)) =
      [[0x03#32], [0#32], [0x03#32], [0x04#32]] ∧
    ((after (.srcStart 0) (in0 .idle)).slot 0).src.state = .running ∧
    answerOf (.srcStart 4) State.reset = [0x02#32] := by decide +kernel

theorem test_stop :
    [SrcState.free, .idle, .running, .stopped].map (fun st => answerOf (.srcStop 0) (in0 st)) =
      [[0x03#32], [0#32], [0#32], [0x04#32]] ∧
    (after (.srcStop 1) p1).active = [⟨1000000, 10000, 0⟩] := by decide +kernel

/-- The queue of slot 0 full (QCAP 4), slot 0 RUNNING. -/
def fullQueue (ovf : Bool) : State :=
  with0 { Slot.reset with
    src := { Src.reset with state := .running, q := List.replicate 4 [C32.zero], ovf := ovf } }

/-- V-SRC-1: the fifth buffer drops the oldest and warns; with the flag still set there is no second warning. -/
theorem test_feed_drops_oldest :
    let t := after (.srcFeed [⟨fONE, fONE⟩]) (fullQueue false)
    t.resp = [[0x200#32, 0x1#32, 0x1#32]] ∧ t.ports.warn = [0] ∧ (t.slot 0).src.ovfCount = 1#32 ∧
    (t.slot 0).src.q = List.replicate 3 [C32.zero] ++ [[⟨fONE, fONE⟩]] ∧
    (after (.srcFeed [C32.zero]) (fullQueue true)).ports.warn = [] := by decide +kernel

/-- V-SRC-3. -/
theorem test_feed_corners :
    answerOf (.srcFeed []) (in0 .running) = [0x06#32] ∧
    answerOf (.srcFeed [C32.zero]) (in0 .idle) = [0x200#32, 0#32, 0#32] := by decide +kernel

/-- Four samples 1, j, -1, -j into a channel of P3: the mixer brings them to zero frequency. -/
theorem test_drain :
    let q : List (List C32) := [[⟨fONE, 0#32⟩, ⟨0#32, fONE⟩, ⟨fMONE, 0#32⟩, ⟨0#32, fMONE⟩]]
    let sl := { (decimator.slot 0) with
      src := { Src.reset with state := .running, consumer := true, q := q ++ q ++ q }
      mix := ⟨0#32, 0xC0000000#32, true⟩ }
    let t := after (.srcDrain 0) (with0 sl)
    t.resp = [[0x300#32, 0x2#32, 0x1#32, 0#32]] ∧ (t.slot 0).src.q = q ∧ (t.slot 0).mix.phase = 0#32 ∧
    t.ports.out[0]? = some [.block (List.replicate 4 ⟨fONE, 0#32⟩)] := by decide +kernel

theorem test_drain_states :
    [SrcState.free, .idle, .running, .stopped].map (fun st => answerOf (.srcDrain 0) (in0 st)) =
      [[0x03#32], [0x03#32], [0x300#32, 0#32, 0#32, 0#32], [0x04#32]] := by decide +kernel

theorem test_source_status :
    answerOf (.srcStatus 0) (fullQueue true) = [0x300#32, 0x6#32, 0x4#32, 0#32] ∧
    ((after (.srcStatus 0) (fullQueue true)).slot 0).src.ovf = false := by decide +kernel

theorem test_attach :
    ((after (.srcAttach 3 true false) p1).slot 3).src.consumer = true ∧
    ((after (.srcAttach 3 true false) p1).slot 3).src.tapen = false := by decide +kernel

/-- V-SRC-4. -/
theorem test_setcorr :
    ((after (.srcSetcorr 0 1) p1).slot 0).mix.inc = 0x08F5C28F#32 ∧
    ((after (.srcSetcorr 0 (-1)) p1).slot 0).mix.inc = 0x08F66A55#32 ∧
    answerOf (.srcSetcorr 2 1) p1 = [0x03#32] := by decide +kernel

/-! ### MIX -/

/-- V-MIX-1. -/
theorem test_mixInc :
    mixInc 12000 48000 = 0x40000000#32 ∧ mixInc (-12000) 48000 = 0xC0000000#32 ∧ mixInc 1000 48000 = 0x05555555#32 ∧
    mixInc (-1000) 48000 = 0xFAAAAAAB#32 ∧ mixInc 1 3 = 0x55555555#32 ∧
    mixInc (-42999) 200000 = 0xC8F61672#32 := by decide +kernel

/-- V-MIX-4: a retune keeps the phase; a zero rate is refused. -/
theorem test_mix_setfreq :
    ((after (.mixSetfreq 0 (-12000) 48000) (mixer 0x80000000#32)).slot 0).mix =
      ⟨0x80000000#32, 0xC0000000#32, true⟩ ∧
    answerOf (.mixSetfreq 0 0 0) State.reset = [0x06#32] := by decide +kernel

/-- V-MIX-2. -/
theorem test_mix_next :
    [0#32, 0x40000000#32, 0x80000000#32, 0xC0000000#32].map (fun p => answerOf (.mixNext 0) (mixer p)) =
      [[0x200#32, fONE, 0#32], [0x200#32, 0#32, fONE], [0x200#32, fMONE, 0#32], [0x200#32, 0#32, fMONE]] ∧
    ((after (.mixNext 0) (mixer 0xC0000000#32)).slot 0).mix.phase = 0#32 ∧
    answerOf (.mixNext 0) State.reset = [0x05#32] := by decide +kernel

/-- V-MIX-3, V-MIX-4. -/
theorem test_mix_step :
    let x : C32 := ⟨fONE, 0x40000000#32⟩
    [0#32, 0x40000000#32, 0x80000000#32, 0xC0000000#32].map (fun p => answerOf (.mixStep 0 x) (mixer p)) =
      [[0x200#32, fONE, 0x40000000#32], [0x200#32, 0xC0000000#32, fONE], [0x200#32, fMONE, 0xC0000000#32],
        [0x200#32, 0x40000000#32, fMONE]] ∧
    answerOf (.mixStep 0 ⟨fMONE, 0#32⟩) (mixer 0x80000000#32) = [0x200#32, fONE, 0x80000000#32] := by decide +kernel

/-- V-MIX-4: reading out is allowed in every state, a step is not. -/
theorem test_mix_getstate :
    answerOf (.mixGetstate 0) p1 = [0x300#32, 0#32, 0x08F61672#32, 1#32] ∧
    answerOf (.mixStep 0 C32.zero) p1 = [0x03#32] := by decide +kernel

/-! ### CIC -/

/-- V-CIC-0. -/
theorem test_factor :
    supported 1 = some [] ∧ supported 12 = some [2, 2, 3] ∧ supported 2800 = some [2, 2, 2, 2, 5, 5, 7] ∧
    supported 2797 = some [2797] ∧ supported 2801 = some [2801] ∧ supported 2802 = none ∧ supported 0 = none := by
  decide +kernel

/-- V-CIC-6: the failing rows. -/
theorem test_cic_cfg_errors :
    answerOf (.cicCfg 0 2803 48000 5 5) State.reset = [0x10#32] ∧ answerOf (.cicCfg 0 0 0 1 2) State.reset = [0x06#32] ∧
    answerOf (.cicCfg 0 6 48000 4000 4000) State.reset = [0x11#32] ∧
    answerOf (.cicCfg 0 6 48000 3000 4001) State.reset = [0x11#32] := by decide +kernel

/-- V-CIC-7: a hit at the same output rate needs no design. -/
theorem test_cic_cfg_hit :
    let s := { State.reset with cache := [⟨48000, 6, [fONE]⟩] }
    let t := after (.cicCfg 1 12 96000 9 1) s
    t.resp = [[0#32]] ∧ t.cache = s.cache ∧ (t.slot 1).cic.ds.map (·.fact) = [2#16, 2#16, 3#16] ∧
    (t.slot 1).cic.pass = 9#32 ∧ (t.slot 1).cic.taps = [fONE] ∧
    answerOf (.cicCfg 1 12 96001 9 1) s = [0x11#32] := by decide +kernel

/-- V-CIC-1, V-CIC-3, V-CIC-6: gain constants. -/
theorem test_gains :
    gains 1 2 = [0x3F000000#32] ∧ gains 1 3 = [0x3EAAAAAB#32] ∧ gains 2 3 = [0x3EAAAAAB#32, 0x3F000001#32] ∧
    gains 2 2 = [0x3F000000#32, fONE] ∧ gains 1 2801 = [0x39BB2DCA#32] := by decide +kernel

/-- V-CIC-9. -/
theorem test_stages :
    let a := stageStep 3 (freshStage 3 0x3EAAAAAB#32) ⟨0x40400000#32, 0#32⟩
    let b := stageStep 3 a.1 ⟨0x40400000#32, 0#32⟩
    let c := stageStep 2 (freshStage 2 0x3F000000#32) ⟨fONE, 0#32⟩
    let d := stageStep 2 c.1 ⟨0x40400000#32, 0#32⟩
    a.2 = ⟨fONE, 0#32⟩ ∧ b.2 = ⟨0x40000000#32, 0#32⟩ ∧ c.2 = ⟨0x3F000000#32, 0#32⟩ ∧ d.2 = ⟨0x40000000#32, 0#32⟩ := by
  decide +kernel

theorem test_push :
    answerOf (.cicPush 0 ⟨fONE, 0#32⟩) decimator = [0x200#32, 0#32, 0#32] ∧
    ((after (.cicPush 0 ⟨fONE, 0#32⟩) decimator).slot 0).cic.ds.map (·.dcnt) = [1] ∧
    answerOf (.cicPush 1 ⟨fONE, fONE⟩) decimator = [0x05#32] := by decide +kernel

/-- Eight samples of ratio 2: four outputs, one block of the means of two inputs each (R159, R169). -/
theorem test_pushblk :
    let t := after (.cicPushblk 0 (ramp 8)) decimator
    t.resp = [[0x200#32, 4#32, 1#32]] ∧
    t.ports.out[0]? =
      some [.block [⟨0x3FC00000#32, 0#32⟩, ⟨0x40600000#32, 0#32⟩, ⟨0x40B00000#32, 0#32⟩, ⟨0x40F00000#32, 0#32⟩]] := by
  decide +kernel

theorem test_getcfg :
    answerOf (.cicGetcfg 0 0) decimator = [0x500#32, 1#32, 1#32, 2#32, 1#32, 0#32] ∧
    answerOf (.cicGetcfg 1 0) decimator = [0x500#32, 0#32, 0#32, 0#32, 0#32, 0#32] := by decide +kernel

/-! ### PSK -/

/-- V-PSK-0, V-PSK-7. -/
theorem test_psk_cfg :
    let t := after (.pskCfg 0 4 true 0#32 0#32 0#32 0x3E800000#32 0x3F000000#32) State.reset
    (t.slot 0).psk.omegaMin = 0x407EB852#32 ∧ (t.slot 0).psk.omegaMax = 0x4080A3D7#32 ∧ (t.slot 0).psk.skip = 8#16 ∧
    answerOf (.pskCfg 0 3 true 0#32 0#32 0#32 0#32 0#32) State.reset = [0x06#32] ∧
    answerOf (.pskCfg 0 128 true 0#32 0#32 0#32 0#32 0#32) State.reset = [0x06#32] := by decide +kernel

theorem test_psk_cfg_ranges :
    answerOf (.pskCfg 0 4 false 0x3FC00000#32 0#32 0#32 0#32 0#32) State.reset = [0x06#32] ∧
    answerOf (.pskCfg 0 4 false 0#32 0xBE800000#32 0#32 0#32 0#32) State.reset = [0x06#32] ∧
    answerOf (.pskCfg 0 4 false 0#32 0#32 0x40600000#32 0#32 0#32) State.reset = [0x06#32] ∧
    answerOf (.pskCfg 0 4 false 0#32 0#32 0#32 0x7FC00000#32 0#32) State.reset = [0x06#32] ∧
    answerOf (.pskCfg 0 127 false 0x80000000#32 fONE fPI fONE fONE) State.reset = [0#32] := by decide +kernel

/-- V-PSK-2, the first seven samples and the eighth: its symbol event. -/
theorem test_psk_step :
    let s := after (.pskStepblk 0 (ramp 7)) loop
    let t := after (.pskStep 0 ⟨0x41000000#32, 0#32⟩) s
    s.resp = [[0x100#32, 0#32]] ∧ t.resp.getLastD [] = [0x300#32, 1#32, 0x40C00000#32, 0#32] ∧
    (t.slot 0).psk.omega = 0x4080A3D7#32 ∧ (t.slot 0).psk.mu = 0x3E8A3D70#32 ∧ (t.slot 0).psk.skip = 4#16 := by
  decide +kernel

/-- P4 steps 3 and 4: twelve samples, two symbols. -/
theorem test_psk_stepblk :
    let t := after (.pskStepblk 0 (ramp 12)) loop
    t.resp = [[0x100#32, 2#32]] ∧
    answerOf (.pskGetstate 0) t =
      [0x700#32, 0#32, 0#32, 0x3F0A3D70#32, 0x4080A3D7#32, 4#32, 0x412451EC#32, 0#32] := by decide +kernel

/-- V-PSK-4. -/
theorem test_phaseError :
    phaseError ⟨fONE, 0x3F000000#32⟩ = 0x3F000000#32 ∧ phaseError ⟨fMONE, 0x3F000000#32⟩ = 0xBF000000#32 ∧
    phaseError ⟨0x3F000000#32, fONE⟩ = 0xBF000000#32 ∧ phaseError ⟨0x3F000000#32, fMONE⟩ = 0x3F000000#32 ∧
    phaseError ⟨fONE, fONE⟩ = fMONE ∧ phaseError ⟨fMONE, fMONE⟩ = fMONE := by decide +kernel

/-- V-PSK-5. -/
theorem test_wrap_and_sanitize :
    wrapPhase 0x40600000#32 = 0xC0321FB6#32 ∧ wrapPhase fPI = fPI ∧ wrapPhase 0x40490FDC#32 = 0xC0490FDA#32 ∧
    sanitize 0x7FC00000#32 = fZERO ∧ sanitize 0xFF800000#32 = fMONE ∧ sanitize 0x80000000#32 = 0x80000000#32 := by
  decide +kernel

/-! ### Witnesses: for every statement with hypotheses, a state and operands that meet them, clause by clause -/

/-- The command answers with a next state. -/
def answers : Result → Bool
  | .next _ => true
  | _ => false

theorem exec_after {i : Instr} {s : State} (h : answers (exec i s) = true) : exec i s = .next (after i s) := by
  unfold after
  cases hx : exec i s <;> simp_all [answers]

/-- The state after a step that answers. -/
def stepped (s : State) : State :=
  match step s with
  | .next t => t
  | _ => s

theorem step_stepped {s : State} (h : answers (step s) = true) : step s = .next (stepped s) := by
  unfold stepped
  cases hx : step s <;> simp_all [answers]

/-- A state with a command at its port. -/
def presenting (i : Instr) (s : State) : State := s.present (encode i)

theorem witness_DecodeOfEncodeIsTheCommand : (Instr.srcFeed longest).wellFormed = true := by
  rw [Instr.wellFormed, blockFits, length_longest]; rfl

theorem witness_LegalHeaderSelectsOneRow :
    (operandWords 0x60FF01FF#32).isSome = true ∧
    (⟨"PSK.CFG", 0x60000000#32, 0xFF00FE00#32⟩ : OpcodeRow) ∈ opcodeTable ∧
    (⟨"PSK.CFG", 0x60000000#32, 0xFF00FE00#32⟩ : OpcodeRow).selectedBy 0x60FF01FF#32 = true := by decide +kernel

theorem witness_StepRunsTheDecodedCommand :
    (Instr.srcStart 2).wellFormed = true ∧
    decode (presenting (.srcStart 2) p1).cmd = .command (.srcStart 2) [] := by decide +kernel

theorem witness_IllegalHeaderConsumesOneWord :
    (p1.present [0x70000000#32, 0#32]).cmd = 0x70000000#32 :: [0#32] ∧
    (∀ r ∈ opcodeTable, r.selectedBy 0x70000000#32 = false) ∧
    (p1.present [0x60000200#32]).cmd = 0x60000200#32 :: [] ∧
    (∀ r ∈ opcodeTable, r.selectedBy 0x60000200#32 = false) := by decide +kernel

theorem witness_CutShortStopsAndIdleWaits :
    ((Instr.cicPush 0 C32.zero).wellFormed = true ∧ 1 < (Instr.cicPush 0 C32.zero).operands.length ∧
      (p1.present [0x51000000#32, 0#32]).cmd =
        (Instr.cicPush 0 C32.zero).header :: (Instr.cicPush 0 C32.zero).operands.take 1) ∧
    p1.cmd = [] := by decide +kernel

theorem witness_InterleavedStreamsRunInOrder :
    Interleaves [.srcFeed [C32.zero]] [.srcDrain 0, .sysNop] [.srcDrain 0, .srcFeed [C32.zero], .sysNop] ∧
    (∀ i ∈ [Instr.srcFeed [C32.zero]], i.wellFormed = true) ∧
    (∀ i ∈ [Instr.srcDrain 0, Instr.sysNop], i.wellFormed = true) ∧
    (p1.present (streamOf [.srcDrain 0, .srcFeed [C32.zero], .sysNop])).cmd =
      streamOf [.srcDrain 0, .srcFeed [C32.zero], .sysNop] :=
  ⟨.right _ _ _ _ (.left _ _ _ _ (.right _ _ _ _ .nil)), by decide, by decide, by decide +kernel⟩

theorem witness_LockGuardsTheTuner :
    (p1.fc.locked = true ∧ refusedWhileLocked (.fcSetbounds 5 1) = true) ∧
    exec (.fcSetppm 2) p1 = .next (after (.fcSetppm 2) p1) ∧ Instr.fcSetppm 2 ≠ .sysReset ∧
    (exec (.allocGetsource 8 1000000 10000 5000 6250) boot =
        .next (after (.allocGetsource 8 1000000 10000 5000 6250) boot) ∧
      (after (.allocGetsource 8 1000000 10000 5000 6250) boot).fc.locked ≠ boot.fc.locked) ∧
    (exec (.srcStop 1) (after (.srcStop 0) p1) = .next (after (.srcStop 1) (after (.srcStop 0) p1)) ∧
      (after (.srcStop 1) (after (.srcStop 0) p1)).fc.locked ≠ (after (.srcStop 0) p1).fc.locked) :=
  ⟨by decide, exec_after (by decide +kernel), by decide, ⟨exec_after (by decide +kernel), by decide +kernel⟩,
    exec_after (by decide +kernel), by decide +kernel⟩

theorem witness_MissingSlotIsRefusedFirst :
    slotField (.pskCfg 4 0 false 0#32 0#32 0#32 0#32 0#32) = some 4 ∧ p1.cfg.nsrc ≤ (4 : BitVec 8).toNat := by
  decide +kernel

theorem witness_LiveSlotRefusesStandaloneCommands :
    standalone (.mixNext 0) = true ∧ slotField (.mixNext 0) = some 0 ∧ (0 : BitVec 8).toNat < p1.cfg.nsrc ∧
    (p1.slot 0).src.state = .idle ∧ (0 : BitVec 8).toNat < (in0 .running).cfg.nsrc ∧
    ((in0 .running).slot 0).src.state = .running := by decide +kernel

theorem witness_ResetValuesOfEveryRegister : 3 < Config.default.nsrc := by decide

theorem witness_RoundedQuotientsAreNearest :
    1 ≤ Config.default.ppmScale ∧ (0 : Int) < 1000000 * (Config.default.ppmScale : Int) + -999999 ∧
    (1 : Word) ≠ 0 := by decide

theorem witness_FreqCommitTellsAllAndReprograms :
    p1.ports.evt[1]? = some [] ∧ p1.fc.listenMask.getLsbD 0 = true ∧
    p1.slots[1]? = some (source 1050000 0xC8F61672#32) ∧ p1.slots[3]? = some Slot.reset := by decide +kernel

/-- P1's tuner unlocked, with the widest bounds. -/
def wide : State := { p1 with fc := { p1.fc with locked := false, min := 0, max := 2 ^ 62 - 1 } }

theorem witness_FcSetfreqChecksThenCommits :
    p1.fc.locked = true ∧ boot.fc.locked = false ∧ (-1 : BitVec 64).toInt < 0 ∧
    2 ^ 62 - 1 < (2 ^ 62 : BitVec 64).toInt ∧
    (resolve boot.cfg (99999 : BitVec 64).toInt boot.fc.ppm.toInt < boot.fc.min.toInt) ∧
    (boot.fc.max.toInt < resolve boot.cfg (2000000001 : BitVec 64).toInt boot.fc.ppm.toInt) ∧
    (wide.fc.locked = false ∧ 0 ≤ (2 ^ 62 - 1 : BitVec 64).toInt ∧ (2 ^ 62 - 1 : BitVec 64).toInt ≤ 2 ^ 62 - 1 ∧
      wide.fc.min.toInt ≤ resolve wide.cfg (2 ^ 62 - 1 : BitVec 64).toInt wide.fc.ppm.toInt ∧
      resolve wide.cfg (2 ^ 62 - 1 : BitVec 64).toInt wide.fc.ppm.toInt ≤ wide.fc.max.toInt) := by decide +kernel

theorem witness_FcSetrateAndSetppmTellTheDevice :
    p1.fc.locked = true ∧ boot.fc.locked = false ∧ (1 : Word) ≠ 0 ∧
    1000000 * (boot.cfg.ppmScale : Int) + (-1000000 : Word).toInt ≤ 0 ∧
    (0 < 1000000 * (boot.cfg.ppmScale : Int) + (-999999 : Word).toInt ∧ boot.fc.freqValid = false) ∧
    (0 < 1000000 * (p1.cfg.ppmScale : Int) + (20000000 : Word).toInt ∧ p1.fc.freqValid = true ∧
      resolve p1.cfg p1.fc.freq.toInt (20000000 : Word).toInt < p1.fc.min.toInt) ∧
    (0 < 1000000 * (p1.cfg.ppmScale : Int) + (-999500 : Word).toInt ∧
      p1.fc.max.toInt < resolve p1.cfg p1.fc.freq.toInt (-999500 : Word).toInt) ∧
    (0 < 1000000 * (p1.cfg.ppmScale : Int) + (2 : Word).toInt ∧
      p1.fc.min.toInt ≤ resolve p1.cfg p1.fc.freq.toInt (2 : Word).toInt ∧
      resolve p1.cfg p1.fc.freq.toInt (2 : Word).toInt ≤ p1.fc.max.toInt) := by decide +kernel

theorem witness_FcPlainSettersStore :
    p1.fc.locked = true ∧ wide.fc.locked = false ∧ wide.fc.freqValid = true ∧ boot.fc.freqValid = false ∧
    (-1 : BitVec 64).toInt < 0 ∧ 2 ^ 62 - 1 < (2 ^ 62 : BitVec 64).toInt ∧ (1 : BitVec 64).toInt < (5 : BitVec 64).toInt ∧
    (0 ≤ (1007002 : BitVec 64).toInt ∧ (1007002 : BitVec 64).toInt ≤ 2 ^ 62 - 1 ∧
      wide.fc.tuned.toInt < (1007002 : BitVec 64).toInt) ∧
    (1007000 : BitVec 64).toInt < wide.fc.tuned.toInt ∧
    ((1007001 : BitVec 64).toInt ≤ wide.fc.tuned.toInt ∧ wide.fc.tuned.toInt ≤ (1007001 : BitVec 64).toInt) ∧
    (2 : Word).toNat < (3 : Word).toNat ∧ ((2 : Word) ≠ 0 ∧ (2 : Word).toNat ≤ (2 : Word).toNat) ∧
    2 ^ p1.cfg.nlisten ≤ (4 : BitVec 16).toNat ∧ (3 : BitVec 16).toNat < 2 ^ p1.cfg.nlisten := by decide +kernel

/-- Every slot of the default build live. -/
def fullHouse : State :=
  { p1 with slots := p1.slots.take 2 ++ [source 1010000 0#32, source 1020000 0#32]
            active := [⟨1000000, 10000, 0⟩, ⟨1010000, 10000, 2⟩, ⟨1020000, 10000, 3⟩, ⟨1050000, 10000, 1⟩] }

/-- `HALFWIN` of 10_state.md R33, written out. -/
def halfWindow (s : State) : Int := (s.fc.rate.toNat * s.fc.ufNum.toNat / s.fc.ufDen.toNat / 2 : Nat)

/-- The set with a channel at its place in ascending frequency (44_alloc.md R280 step 5), written out. -/
def proposed (s : State) (ch : Channel) : List Channel :=
  let notAbove := fun c : Channel => decide (c.freq.toInt ≤ ch.freq.toInt)
  s.active.takeWhile notAbove ++ ch :: s.active.dropWhile notAbove

/-- What the checks of an allocation on P1 read, up to an unsupported ratio, and a miss whose design fails. -/
theorem witness_AllocGetsourceChecksInOrder :
    State.reset.fc.rate = 0 ∧ p1.fc.rate ≠ 0 ∧ (-1 : BitVec 64).toInt < 0 ∧ 2 ^ 62 - 1 < (2 ^ 62 : BitVec 64).toInt ∧
    (∃ c ∈ p1.active, c.freq = 1000000) ∧ (∀ c ∈ p1.active, c.freq ≠ 1030000) ∧
    (∀ c ∈ fullHouse.active, c.freq ≠ 1030000) ∧ (∀ k < fullHouse.cfg.nsrc, (fullHouse.slot k).live = true) ∧
    (2 < p1.cfg.nsrc ∧ (p1.slot 2).live = false ∧ ∀ j < 2, (p1.slot j).live = true) ∧
    place (halfWindow p1) p1.fc.blackout.toNat (proposed p1 ⟨1200000, 10000, 2⟩) = none ∧
    (place (halfWindow p1) p1.fc.blackout.toNat (proposed p1 ⟨1010000, 4000, 2⟩) = some 1014001 ∧
      (1014001 : Int) ≠ p1.fc.freq.toInt ∧
      ({ p1 with fc := { p1.fc with max := 1007001 } } : State).fc.max.toInt < resolve p1.cfg 1014001 p1.fc.ppm.toInt) ∧
    (place (halfWindow p1) p1.fc.blackout.toNat (proposed p1 ⟨1030000, 4000, 2⟩) = some 1007001 ∧
      p1.fc.freqValid = true ∧ (1007001 : Int) = p1.fc.freq.toInt) ∧
    supported (0 : BitVec 16).toNat = none ∧
    (supported (4 : BitVec 16).toNat ≠ none ∧
      (p1.cache.find? fun e => e.num.toNat * (4 : BitVec 16).toNat = p1.fc.rate.toNat * e.den.toNat) = none ∧
      design p1.cfg.tapsMax p1.fc.rate 4 2 2 = none) := by
  decide +kernel

/-- Both ways of committing: with a retune (P1 step 7), and with the center unmoved (V-ALLOC-8). -/
theorem witness_AllocGetsourceCommits :
    (boot.fc.rate ≠ 0 ∧ (∀ ch ∈ boot.active, ch.freq ≠ 1000000) ∧ 0 < boot.cfg.nsrc ∧ (boot.slot 0).live = false ∧
      (∀ j < 0, (boot.slot j).live = true) ∧
      place (halfWindow boot) boot.fc.blackout.toNat (proposed boot ⟨1000000, 10000, 0⟩) = some 993001 ∧
      boot.fc.min.toInt ≤ resolve boot.cfg 993001 boot.fc.ppm.toInt ∧
      resolve boot.cfg 993001 boot.fc.ppm.toInt ≤ boot.fc.max.toInt) ∧
    (p1.fc.rate ≠ 0 ∧ (∀ ch ∈ p1.active, ch.freq ≠ 1030000) ∧ 2 < p1.cfg.nsrc ∧ (p1.slot 2).live = false ∧
      (∀ j < 2, (p1.slot j).live = true) ∧
      place (halfWindow p1) p1.fc.blackout.toNat (proposed p1 ⟨1030000, 4000, 2⟩) = some 1007001 ∧
      p1.fc.freqValid = true ∧ (1007001 : Int) = p1.fc.freq.toInt) ∧
    supported (8 : BitVec 16).toNat = some [2, 2, 2] ∧
    (boot.cache.find? fun e => e.num.toNat * (8 : BitVec 16).toNat = boot.fc.rate.toNat * e.den.toNat) =
      some ⟨200000, 8, [fONE]⟩ ∧
    (p1.cache.find? fun e => e.num.toNat * (8 : BitVec 16).toNat = p1.fc.rate.toNat * e.den.toNat) =
      some ⟨200000, 8, [fONE]⟩ := by
  decide +kernel

theorem witness_AllocReleaseAndQuery :
    (∀ c ∈ p1.active, c.freq ≠ 1234) ∧ p1.active.Pairwise (fun a b => a.freq ≠ b.freq) ∧
    (⟨1000000, 10000, 0⟩ : Channel) ∈ p1.active ∧ p1.active[(1 : BitVec 16).toNat]? = some ⟨1050000, 10000, 1⟩ ∧
    p1.active.length ≤ (2 : BitVec 16).toNat := by decide +kernel

/-- R292: A alone, A and B after one shift, and A, B and C, which fit no window. -/
theorem witness_PlacedCenterIsFeasible :
    let a : Channel := ⟨1000000, 10000, 0⟩
    let b : Channel := ⟨1050000, 10000, 1⟩
    let c : Channel := ⟨1200000, 10000, 2⟩
    [a, b] = a :: [] ++ [b] ∧ [a, b, c] = a :: [b] ++ [c] ∧
    place 50000 2000 [a] = some 993001 ∧ place 50000 2000 [a, b] = some 1007001 ∧
    place 50000 2000 [a, b, c] = none := by decide +kernel

theorem witness_SrcStartAndStop :
    (0 : BitVec 8).toNat < (in0 .idle).cfg.nsrc ∧
    [SrcState.free, .idle, .running, .stopped].map (fun st => ((in0 st).slot 0).src.state) =
      [.free, .idle, .running, .stopped] := by decide +kernel

theorem witness_StopIsReleaseOfItsChannel : AllocOk p1 ∧ (⟨1050000, 10000, 1⟩ : Channel) ∈ p1.active := by
  decide +kernel

theorem witness_SrcFeedCopiesToRunningSlots :
    ({ fullQueue false with cfg := { Config.default with bufMax := 1 } } : State).cfg.bufMax < (ramp 2).length ∧
    (ramp 1 ≠ [] ∧ (ramp 1).length ≤ ({ fullQueue false with cfg := { Config.default with bufMax := 1 } } : State).cfg.bufMax) ∧
    ((fullQueue false).slot 0).src.q.length = (fullQueue false).cfg.qcap := by decide +kernel

theorem witness_SrcDrainRunsItsBuffers :
    (0 : BitVec 8).toNat < (fullQueue true).cfg.nsrc ∧ ((fullQueue true).slot 0).src.state = .running ∧
    ((in0 .stopped).slot 0).src.state = .stopped ∧ ((in0 .idle).slot 0).src.state = .idle := by decide +kernel

theorem witness_DrainsOfTwoSlotsCommute :
    let s := (fullQueue true).setSlot 3 ((fullQueue false).slot 0)
    (0 : BitVec 8) ≠ 3 ∧ (0 : BitVec 8).toNat < s.cfg.nsrc ∧ (3 : BitVec 8).toNat < s.cfg.nsrc ∧
    (s.slot 0).src.state = .running ∧ (s.slot 3).src.state = .running := by decide +kernel

theorem witness_QueuesAreFirstInFirstOut :
    exec (.srcFeed [C32.zero]) (fullQueue true) = .next (after (.srcFeed [C32.zero]) (fullQueue true)) ∧
    exec (.srcDrain 0) (fullQueue true) = .next (after (.srcDrain 0) (fullQueue true)) :=
  ⟨exec_after (by decide +kernel), exec_after (by decide +kernel)⟩

theorem witness_SrcStatusAttachSetcorr :
    (0 : BitVec 8).toNat < p1.cfg.nsrc ∧ (p1.slot 0).src.state = .idle ∧ ((in0 .running).slot 0).src.state = .running ∧
    ((in0 .stopped).slot 0).src.state = .stopped ∧ ((in0 .free).slot 0).src.state = .free := by decide +kernel

theorem witness_SlotCommandsTouchOneSlot :
    (slotField (.srcStop 1) = some 1 ∧ exec (.srcStop 1) p1 = .next (after (.srcStop 1) p1)) ∧
    (slotField (.cicCfg 2 8 200000 1 2) = some 2 ∧
      exec (.cicCfg 2 8 200000 1 2) p1 = .next (after (.cicCfg 2 8 200000 1 2) p1)) :=
  ⟨⟨rfl, exec_after (by decide +kernel)⟩, rfl, exec_after (by decide +kernel)⟩

/-- A slot of each kind that may be driven directly. -/
theorem witness_Standalone : Standalone State.reset 3 ∧ Standalone (in0 .stopped) 0 := by decide +kernel

theorem witness_MixCommandsAnswer :
    Standalone (mixer 0#32) 0 ∧ ((mixer 0#32).slot 0).mix.cfgd = true ∧ ((in0 .stopped).slot 0).mix.cfgd = false ∧
    (-(2 ^ 62) : BitVec 64).toInt < -(2 ^ 62 - 1) ∧ 2 ^ 62 - 1 < (2 ^ 62 : BitVec 64).toInt ∧
    ((1 : Word) ≠ 0 ∧ -(2 ^ 62 - 1) ≤ (-(2 ^ 62 - 1) : BitVec 64).toInt ∧
      (-(2 ^ 62 - 1) : BitVec 64).toInt ≤ 2 ^ 62 - 1) := by decide +kernel

theorem witness_OscillatorPhaseIsExact :
    Standalone (mixer 0xC0000000#32) 0 ∧ (0 : BitVec 8).toNat < (mixer 0xC0000000#32).slots.length ∧
    ((mixer 0xC0000000#32).slot 0).mix.cfgd = true := by decide +kernel

theorem witness_OpenFunctionsKeepTheirRequirements :
    isFinite 0x7F7FFFFF#32 = true ∧ isFinite 0x7F800000#32 = false ∧ isFinite 0x7FC00000#32 = false ∧
    (4000 : Word).toNat ≤ (4000 : Word).toNat ∧
    (48000 : Word).toNat < 2 * (4001 : Word).toNat * (6 : BitVec 16).toNat := by decide

/-- The tests of `CIC.CFG`, a hit and a miss. -/
theorem witness_CicCommandsAnswer :
    Standalone p1 2 ∧ supported (0 : BitVec 16).toNat = none ∧ supported (2802 : BitVec 16).toNat = none ∧
    supported (2801 : BitVec 16).toNat = some [2801] ∧
    (p1.cache.find? fun e => e.num.toNat * (4 : BitVec 16).toNat = (100000 : Word).toNat * e.den.toNat) =
      some ⟨200000, 8, [fONE]⟩ ∧
    (p1.cache.find? fun e => e.num.toNat * (2801 : BitVec 16).toNat = (2801000 : Word).toNat * e.den.toNat) = none ∧
    (Standalone decimator 0 ∧ (decimator.slot 0).cic.cfgd = true ∧ (p1.slot 2).cic.cfgd = false) := by decide +kernel

theorem witness_CicPushblkIsItsPushes :
    (Standalone p1 2 ∧ (p1.slot 2).cic.cfgd = false) ∧
    (Standalone decimator 0 ∧ (0 : BitVec 8).toNat < decimator.slots.length ∧
      (decimator.slot 0).cic.cfgd = true) := by decide +kernel

theorem witness_EverySupportedRatioFactors : (1 ≤ 1 ∧ 1 ≤ 2801) ∧ (1 ≤ 2801 ∧ 2801 ≤ 2801) ∧ 2801 < 2802 := by decide

theorem witness_DecimatorKeepsEveryRthSample :
    decimator.cfg.Legal ∧ Standalone decimator 0 ∧ supported (2 : BitVec 16).toNat = some [2] ∧
    (decimator.slot 0).cic = cicInit decimator.cfg 48000 2 6000 12000 [2] [fONE] := by decide +kernel

theorem witness_StageIsMovingSumOfItsHistory :
    (3 ≤ 3 ∧ StageOk 3 (freshStage 3 fONE) ∧ (freshStage 3 fONE).history = C32.zero :: [C32.zero]) ∧
    (freshStage 2 fONE).buf = [C32.zero] ∧ isNaN 0x7FC00000#32 = true := by decide +kernel

theorem witness_OutputStageFiltersAndFillsBlocks :
    (decimator.slot 0).cic.x.length = (decimator.slot 0).cic.taps.length ∧
    (decimator.slot 0).cic.blkn + 1 ≠ 4 ∧ (decimator.slot 0).cic.blkn + 1 = 1 := by decide +kernel

/-- R161, R173: with the factors 2 and 3 the first sample is dropped, the second kept, and dropped by the next stage;
the sixth goes through. -/
theorem witness_DecimatorPathFollowsThePseudocode :
    let u := cicInit Config.default 48000 6 3000 4000 [2, 3] [fONE]
    let at' := fun n => (ramp n).foldl (fun v x => (cicRun Config.default v x).cic) u
    (at' 0).ds.map (·.dcnt) = [0, 0] ∧ (at' 1).ds.map (·.dcnt) = [1, 0] ∧ (at' 2).ds.map (·.dcnt) = [0, 1] ∧
    (at' 5).blkn = 0 ∧ (at' 6).ds.map (·.dcnt) = [0, 0] ∧ (at' 6).blkn = 1 := by decide +kernel

theorem witness_CacheIsEvictionFree :
    Instr.cicCfg 2 8 200000 1 2 ≠ .sysReset ∧
    exec (.cicCfg 2 8 200000 1 2) p1 = .next (after (.cicCfg 2 8 200000 1 2) p1) :=
  ⟨by decide, exec_after (by decide +kernel)⟩

theorem witness_PskCommandsAnswer :
    (0 : BitVec 8).toNat < loop.cfg.nsrc ∧ ((in0 .running).slot 0).src.state = .running ∧
    (p1.slot 0).src.state ≠ .running ∧ ¬ 4 ≤ (3 : BitVec 8).toNat ∧
    (4 ≤ (127 : BitVec 8).toNat ∧ (127 : BitVec 8).toNat ≤ 127 ∧
      (loop.cfg.elOffset : Int) ≤ ((127 : BitVec 8).toNat / 2 : Nat) - 1 ∧
      (fle fZERO 0x80000000#32 = true ∧ fle 0x80000000#32 fONE = true) ∧ (fle fZERO fONE = true ∧ fle fONE fONE = true) ∧
      (fle fZERO fPI = true ∧ fle fPI fPI = true)) ∧
    (Standalone loop 0 ∧ (loop.slot 0).psk.cfgd = true) ∧
    (Standalone State.reset 0 ∧ (State.reset.slot 0).psk.cfgd = false) := by decide +kernel

theorem witness_PskStepFollowsThePseudocode :
    (loop.slot 0).psk.skip ≠ 1#16 ∧ ((after (.pskStepblk 0 (ramp 7)) loop).slot 0).psk.skip = 1#16 := by decide +kernel

theorem witness_PskStepblkIsItsSteps :
    (Standalone State.reset 0 ∧ (State.reset.slot 0).psk.cfgd = false) ∧
    (Standalone loop 0 ∧ (0 : BitVec 8).toNat < loop.slots.length ∧ (loop.slot 0).psk.cfgd = true) := by decide +kernel

theorem witness_FirstSymbolAfterTwoPeriods :
    Standalone loop 0 ∧ 1 ≤ (4 : BitVec 8).toNat ∧
    (loop.slot 0).psk = pskInit 4 true 0#32 0#32 0#32 0x3E800000#32 0x3F000000#32 ∧
    (ramp 8).length ≤ 2 * (4 : BitVec 8).toNat ∧ (ramp 7).length ≤ 2 * (4 : BitVec 8).toNat := by decide +kernel

theorem witness_ObserversDoNotAlterTheRegisters :
    (after (.srcAttach 0 true true) loop).withoutObservers = loop.withoutObservers ∧
    ((after (.srcAttach 0 true true) loop).slot 0).src.tapen ≠ (loop.slot 0).src.tapen := by decide +kernel

theorem witness_ArithmeticIsCorrectlyRounded :
    isFinite fONE = true ∧ isFinite fMONE = true ∧ isZero fONE = false ∧ valueOf fONE + valueOf fMONE = 0 ∧
    valueOf fONE - valueOf fONE = 0 ∧ isFinite 0x80000000#32 = true ∧ isZero 0x80000000#32 = true := by decide +kernel

theorem witness_SquareRootIsCorrectlyRounded :
    isFinite 0x40000000#32 = true ∧ 0 ≤ valueOf 0x40000000#32 ∧ isFinite 0x80000000#32 = true ∧
    0 ≤ valueOf 0x80000000#32 ∧ isZero 0x80000000#32 = true := by decide +kernel

theorem witness_ExceptionalResultsAreIEEE :
    (isInf 0xFF800000#32 = true ∧ isFinite 0x7F7FFFFF#32 = true) ∧
    (isInf 0x7F800000#32 = true ∧ isNaN fMONE = false ∧ isZero fMONE = false) ∧
    (signBit 0x7F800000#32 ≠ signBit 0xFF800000#32 ∧ signBit 0xFF800000#32 = signBit 0xFF800000#32) ∧
    (isFinite 0x00000001#32 = true ∧ isZero 0x00000001#32 = false ∧ isZero 0x80000000#32 = true) ∧
    infOf false = 0x7F800000#32 := by decide +kernel

theorem witness_ComparisonsAndConversionsAreExact :
    (isFinite 0x00000001#32 = true ∧ isFinite 0xFF7FFFFF#32 = true) ∧ isNaN 0xFFFFFFFF#32 = true ∧
    (-(2 ^ 24 - 1) : Int).natAbs < 2 ^ 24 ∧
    (fle fMONE fONE = true ∧ fle fMONE fMONE = true ∧ fle fONE fONE = true) ∧
    (flt 0xBF800001#32 fMONE = true ∧ flt fONE 0x3F800001#32 = true) := by decide +kernel

theorem witness_ResetMeetsTheInvariants : Config.default.Legal := by decide

theorem witness_StepKeepsTunerAndAllocator :
    CoreInv (presenting (.allocRelease 1000000) p1) ∧
    step (presenting (.allocRelease 1000000) p1) = .next (stepped (presenting (.allocRelease 1000000) p1)) :=
  ⟨⟨by decide +kernel, by decide +kernel, by decide +kernel, by decide +kernel, by decide +kernel, by decide +kernel,
    by decide +kernel⟩, step_stepped (by decide +kernel)⟩

theorem witness_StepKeepsQueuesBoundedAndDeviceTold :
    (QueuesOk (presenting (.srcFeed [C32.zero]) (fullQueue false)) ∧
      step (presenting (.srcFeed [C32.zero]) (fullQueue false)) =
        .next (stepped (presenting (.srcFeed [C32.zero]) (fullQueue false)))) ∧
    (DeviceTold (presenting (.fcSetppm 2) (p1.emitDev (.setFreq 1007001))) ∧
      (p1.emitDev (.setFreq 1007001)).fc.freqValid = true ∧
      step (presenting (.fcSetppm 2) (p1.emitDev (.setFreq 1007001))) =
        .next (stepped (presenting (.fcSetppm 2) (p1.emitDev (.setFreq 1007001))))) :=
  ⟨⟨by decide +kernel, step_stepped (by decide +kernel)⟩, by decide +kernel, by decide +kernel,
    step_stepped (by decide +kernel)⟩

theorem witness_StepKeepsDecimatorShapes :
    DecimatorsOk (presenting (.cicPush 0 C32.zero) decimator) ∧
    step (presenting (.cicPush 0 C32.zero) decimator) =
      .next (stepped (presenting (.cicPush 0 C32.zero) decimator)) :=
  ⟨by decide +kernel, step_stepped (by decide +kernel)⟩

theorem witness_StepKeepsLoopInvariant :
    LoopsOk (presenting (.pskStep 0 ⟨0x7FC00000#32, 0#32⟩) loop) ∧
    step (presenting (.pskStep 0 ⟨0x7FC00000#32, 0#32⟩) loop) =
      .next (stepped (presenting (.pskStep 0 ⟨0x7FC00000#32, 0#32⟩) loop)) :=
  ⟨by decide +kernel, step_stepped (by decide +kernel)⟩

theorem witness_PortsOnlyGrow :
    step (presenting (.fcSetppm 2) p1) = .next (stepped (presenting (.fcSetppm 2) p1)) :=
  step_stepped (by decide +kernel)

end Sys2Proof.Tests
end

