-- ==== Sys2Proof/Proofs/TunerAndAllocator.lean ====
section
/-! PROOF. Every step keeps the invariants of the controller, the allocator and the live mixers.

Three shapes of next state carry the argument. Most commands keep every source as it is (`Keeps`). The unlocked setters
and the reset leave a core with no source at all (`Vacant`). What remains is the locked setter (`freqCommit`), a release
and an allocation, each with a lemma of its own. -/

namespace Sys2Proof.Proofs.TunerAndAllocator

open Sys2Proof.Machine

/-! ### Reading the slots of a written state -/

theorem slot_setSlot_cases (s : State) (j k : Nat) (sl : Slot) :
    (s.setSlot k sl).slot j = s.slot j ∨ (j = k ∧ (s.setSlot k sl).slot j = sl) := by
  by_cases hjk : j = k
  · subst hjk
    rcases Nat.lt_or_ge j s.slots.length with hlt | hge
    · exact .inr ⟨rfl, slot_setSlot_same hlt sl⟩
    · left
      rw [slot_of_length_le hge, slot_of_length_le (by simpa using hge)]
  · exact .inl (slot_setSlot_ne hjk sl)

theorem slot_map_slots (s : State) {f : Slot → Slot} (hreset : f Slot.reset = Slot.reset) (k : Nat) :
    ({ s with slots := s.slots.map f } : State).slot k = f (s.slot k) := by
  rcases Nat.lt_or_ge k s.slots.length with hlt | hge
  · simp [State.slot, List.getD, hlt]
  · rw [slot_of_length_le hge, slot_of_length_le (by simpa using hge), hreset]

/-! ### What the invariants read of a slot -/

/-- 45_src.md R302 for one slot: a live source's mixer is programmed to its offset. -/
def Programmed (fc : Fc) (sl : Slot) : Prop :=
  sl.live = true → sl.mix.cfgd = true ∧
    sl.mix.inc = mixInc (fc.freq.toInt - sl.src.chFreq.toInt - sl.src.corr.toInt) fc.rate

theorem mixerOk_iff (s : State) : MixerOk s ↔ ∀ k < s.cfg.nsrc, Programmed s.fc (s.slot k) := Iff.rfl

theorem programmed_of_not_live {fc : Fc} {sl : Slot} (h : sl.live = false) : Programmed fc sl := by
  simp [Programmed, h]

/-- All that `AllocOk` reads of a slot is the same in both. -/
structure SameSource (a b : Slot) : Prop where
  live : b.live = a.live
  chFreq : b.src.chFreq = a.src.chFreq
  chBw : b.src.chBw = a.src.chBw

/-- The slot `b` has the source of `a`, and its mixer is as well programmed. -/
structure KeepsSource (fc : Fc) (a b : Slot) : Prop extends SameSource a b where
  programmed : Programmed fc a → Programmed fc b

theorem KeepsSource.refl (fc : Fc) (a : Slot) : KeepsSource fc a a := ⟨⟨rfl, rfl, rfl⟩, id⟩

theorem KeepsSource.trans {fc : Fc} {a b c : Slot} (hab : KeepsSource fc a b) (hbc : KeepsSource fc b c) :
    KeepsSource fc a c :=
  ⟨⟨hbc.live.trans hab.live, hbc.chFreq.trans hab.chFreq, hbc.chBw.trans hab.chBw⟩,
    hbc.programmed ∘ hab.programmed⟩

/-- A slot keeps its source when the registers that program the mixer stay. -/
theorem keepsSource_of_eq {fc : Fc} {a b : Slot} (hlive : b.live = a.live) (hfreq : b.src.chFreq = a.src.chFreq)
    (hbw : b.src.chBw = a.src.chBw) (hcorr : b.src.corr = a.src.corr) (hcfgd : b.mix.cfgd = a.mix.cfgd)
    (hinc : b.mix.inc = a.mix.inc) : KeepsSource fc a b :=
  ⟨⟨hlive, hfreq, hbw⟩, fun h => by simpa [Programmed, hlive, hfreq, hcorr, hcfgd, hinc] using h⟩

theorem live_of_src_eq {a b : Slot} (h : b.src = a.src) : b.live = a.live := by simp [Slot.live, h]

/-- A slot keeps its source when its decimator and its loop alone change. -/
theorem keepsSource_of_units {fc : Fc} {a b : Slot} (hsrc : b.src = a.src) (hmix : b.mix = a.mix) :
    KeepsSource fc a b :=
  keepsSource_of_eq (live_of_src_eq hsrc) (by rw [hsrc]) (by rw [hsrc]) (by rw [hsrc]) (by rw [hmix]) (by rw [hmix])

/-- A slot without a live source has no mixer to keep programmed (45_src.md R301). -/
theorem keepsSource_of_not_live {fc : Fc} {a b : Slot} (ha : a.live = false) (hsrc : b.src = a.src) :
    KeepsSource fc a b :=
  ⟨⟨live_of_src_eq hsrc, by rw [hsrc], by rw [hsrc]⟩,
    fun _ => programmed_of_not_live ((live_of_src_eq hsrc).trans ha)⟩

/-! ### Work on a slot keeps its source -/

theorem keepsSource_foldl {α : Type} {fc : Fc} {f : Work → α → Work}
    (hf : ∀ w x, KeepsSource fc w.sl (f w x).sl) (w : Work) (xs : List α) :
    KeepsSource fc w.sl (xs.foldl f w).sl := by
  induction xs generalizing w with
  | nil => exact .refl fc w.sl
  | cons x xs ih => exact (hf w x).trans (ih (f w x))

theorem keepsSource_pushOne (fc : Fc) (c : Config) (w : Work) (x : C32) :
    KeepsSource fc w.sl (pushOne c w x).sl := by
  rw [pushOne_sl]
  exact keepsSource_of_units rfl rfl

theorem keepsSource_pskOne (fc : Fc) (c : Config) (w : Work) (x : C32) :
    KeepsSource fc w.sl (pskOne c w x).sl := by
  rw [pskOne_sl]
  exact keepsSource_of_units rfl rfl

/-- A drained sample advances the mixer's phase; increment and configuration stay (40_mix.md R131). -/
theorem keepsSource_drainOne (fc : Fc) (c : Config) (w : Work) (x : C32) :
    KeepsSource fc w.sl (drainOne c w x).sl := by
  have hsrc := drainOne_src c w x
  have hmix := drainOne_mix c w x
  exact keepsSource_of_eq (live_of_src_eq hsrc) (by rw [hsrc]) (by rw [hsrc]) (by rw [hsrc])
    (by rw [hmix]; rfl) (by rw [hmix]; rfl)

theorem keepsSource_drainBuffer (fc : Fc) (c : Config) (w : Work) (b : List C32) :
    KeepsSource fc w.sl (drainBuffer c w b).sl :=
  have hdequeue : KeepsSource fc w.sl { w.sl with src := { w.sl.src with q := dequeue w.sl.src.q } } :=
    keepsSource_of_eq rfl rfl rfl rfl rfl rfl
  hdequeue.trans (keepsSource_foldl (keepsSource_drainOne fc c) { w with sl := _ } b)

theorem keepsSource_feedSlot (fc : Fc) (qcap : Nat) (x : List C32) (sl : Slot) :
    KeepsSource fc sl (feedSlot qcap x sl) := by
  unfold feedSlot
  split
  · split <;> exact keepsSource_of_eq rfl rfl rfl rfl rfl rfl
  · exact .refl fc sl

theorem sameSource_reprogram (fc : Fc) (sl : Slot) : SameSource sl (reprogram fc sl) := by
  unfold reprogram
  split <;> exact ⟨rfl, rfl, rfl⟩

/-- `Deliver` programs every live source for the tuner frequency of the moment (43_fc.md R247). -/
theorem programmed_reprogram {fc : Fc} {sl : Slot} (hcfgd : sl.live = true → sl.mix.cfgd = true) :
    Programmed fc (reprogram fc sl) := by
  intro hlive
  rw [(sameSource_reprogram fc sl).live] at hlive
  rw [reprogram, if_pos hlive]
  exact ⟨hcfgd hlive, rfl⟩

/-! ### States with the same sources -/

theorem allocOk_of_sameSource {s t : State} (h : AllocOk s) (hcfg : t.cfg = s.cfg)
    (hlocked : t.fc.locked = s.fc.locked) (hactive : t.active = s.active)
    (hslot : ∀ k, SameSource (s.slot k) (t.slot k)) : AllocOk t := by
  obtain ⟨hsorted, hdistinct, hentry, howner, hlock⟩ := h
  rw [AllocOk, hcfg, hlocked, hactive]
  refine ⟨hsorted, hdistinct, fun c hc => ?_, fun k hk hl => howner k hk ((hslot k).live ▸ hl), hlock⟩
  have hs := hslot c.slot.toNat
  rw [hs.live, hs.chFreq, hs.chBw]
  exact hentry c hc

/-- The command leaves the controller and the set alone, and every slot's source; ports, cached designs, queues and
the units behind the mixers may change. -/
structure Keeps (s t : State) : Prop where
  cfg : t.cfg = s.cfg
  fc : t.fc = s.fc
  active : t.active = s.active
  slots : t.slots.length = s.slots.length
  out : t.ports.out.length = s.ports.out.length
  tap : t.ports.tap.length = s.ports.tap.length
  evt : t.ports.evt.length = s.ports.evt.length
  cache : s.cache.length ≤ s.cfg.cacheCap → t.cache.length ≤ s.cfg.cacheCap
  source : ∀ k, KeepsSource s.fc (s.slot k) (t.slot k)

theorem Keeps.refl (s : State) : Keeps s s := ⟨rfl, rfl, rfl, rfl, rfl, rfl, rfl, id, fun _ => .refl _ _⟩

theorem Keeps.answering {s t : State} (h : Keeps s t) (rs : List Word) : Keeps s (t.answering rs) :=
  ⟨h.cfg, h.fc, h.active, h.slots, h.out, h.tap, h.evt, h.cache, h.source⟩

theorem Keeps.emitWarn {s t : State} (h : Keeps s t) (ks : List (BitVec 8)) : Keeps s (t.emitWarn ks) :=
  ⟨h.cfg, h.fc, h.active, h.slots, h.out, h.tap, h.evt, h.cache, h.source⟩

theorem coreInv_of_keeps {s t : State} (h : CoreInv s) (hk : Keeps s t) : CoreInv t := by
  obtain ⟨⟨hlegal, hslots, hout, htap, hevt, hmask, hden, hnum, hcache⟩, hppm, htuner, halloc, hrate, hmixer,
    hwindow⟩ := h
  refine ⟨⟨?_, ?_, ?_, ?_, ?_, ?_, ?_, ?_, ?_⟩, ?_, ?_, ?_, ?_, ?_, ?_⟩
  · rwa [hk.cfg]
  · rw [hk.slots, hslots, hk.cfg]
  · rw [hk.out, hout, hk.cfg]
  · rw [hk.tap, htap, hk.cfg]
  · rw [hk.evt, hevt, hk.cfg]
  · rwa [hk.fc, hk.cfg]
  · rwa [hk.fc]
  · rwa [hk.fc]
  · rw [hk.cfg]
    exact hk.cache hcache
  · rwa [PpmOk, hk.cfg, hk.fc]
  · rwa [TunerOk, hk.cfg, hk.fc]
  · exact allocOk_of_sameSource halloc hk.cfg (by rw [hk.fc]) hk.active fun k => (hk.source k).toSameSource
  · rwa [RateOk, hk.fc, hk.active]
  · rw [mixerOk_iff, hk.cfg, hk.fc]
    exact fun k hlt => (hk.source k).programmed (hmixer k hlt)
  · rwa [WindowOk, hk.fc, hk.active]

theorem keepsSource_setSlot {s : State} {k : Nat} {sl : Slot} (h : KeepsSource s.fc (s.slot k) sl) (j : Nat) :
    KeepsSource s.fc (s.slot j) ((s.setSlot k sl).slot j) := by
  rcases slot_setSlot_cases s j k sl with heq | ⟨rfl, heq⟩
  · rw [heq]
    exact .refl _ _
  · rwa [heq]

theorem keeps_put {s : State} {k : BitVec 8} {sl : Slot} (h : KeepsSource s.fc (s.slot k.toNat) sl) (rs : List Word) :
    Keeps s (s.put k sl rs) :=
  ⟨rfl, rfl, rfl, by simp, rfl, rfl, rfl, id, keepsSource_setSlot h⟩

theorem keeps_store {s : State} {k : Nat} {w : Work} (h : KeepsSource s.fc (s.slot k) w.sl) : Keeps s (s.store k w) :=
  ⟨rfl, rfl, rfl, by simp, by simp, by simp, rfl, id, keepsSource_setSlot h⟩

theorem keeps_feed (s : State) (x : List C32) :
    Keeps s { s with slots := s.slots.map (feedSlot s.cfg.qcap x) } where
  cfg := rfl
  fc := rfl
  active := rfl
  slots := by simp
  out := rfl
  tap := rfl
  evt := rfl
  cache := id
  source k := by
    rw [slot_map_slots s rfl]
    exact keepsSource_feedSlot _ _ _ _

/-- A miss is inserted only while the cache has room (41_cic.md R164). -/
theorem length_cacheAfter_le {s : State} (h : s.cache.length ≤ s.cfg.cacheCap) (rate : Word) (r : BitVec 16)
    (p : Plan) : (cacheAfter s rate r p).length ≤ s.cfg.cacheCap := by
  unfold cacheAfter cacheInsert
  split
  · exact h
  · split
    · simp only [List.length_append, List.length_singleton]
      omega
    · exact h

theorem keeps_cacheAfter_put {s : State} {k : BitVec 8} {sl : Slot} (h : KeepsSource s.fc (s.slot k.toNat) sl)
    (rate : Word) (r : BitVec 16) (p : Plan) (rs : List Word) :
    Keeps s (({ s with cache := cacheAfter s rate r p } : State).put k sl rs) :=
  ⟨rfl, rfl, rfl, by simp, rfl, rfl, rfl, fun hc => length_cacheAfter_le hc rate r p, keepsSource_setSlot h⟩

/-! ### A core with no source -/

/-- No channel is active and no slot holds a live source. -/
structure Vacant (s : State) : Prop where
  locked : s.fc.locked = false
  active : s.active = []
  live : ∀ k < s.cfg.nsrc, (s.slot k).live = false

/-- 10_state.md R36: an unlocked controller has no source. -/
theorem vacant_of_unlocked {s : State} (h : AllocOk s) (hl : s.fc.locked = false) : Vacant s := by
  obtain ⟨-, -, -, howner, hlock⟩ := h
  have hactive : s.active = [] := by simpa [hl] using hlock
  refine ⟨hl, hactive, fun k hk => ?_⟩
  by_contra hlive
  obtain ⟨c, hc, -⟩ := howner k hk (by simpa using hlive)
  simp [hactive] at hc

theorem coreInv_of_vacant {s : State} (hv : Vacant s) (hshape : ShapeOk s) (hppm : PpmOk s) (htuner : TunerOk s) :
    CoreInv s := by
  refine ⟨hshape, hppm, htuner, ⟨?_, ?_, ?_, ?_, ?_⟩, fun h => absurd hv.active h,
    fun k hk => programmed_of_not_live (hv.live k hk), fun h => absurd hv.active h⟩
  · simp [hv.active]
  · simp [hv.active]
  · simp [hv.active]
  · intro k hk hl
    simp [hv.live k hk] at hl
  · simp [hv.active, hv.locked]

theorem slot_resetCore (s : State) (k : Nat) : s.resetCore.slot k = Slot.reset := by
  rcases slot_mem_or_reset s.resetCore k with hmem | heq
  · exact (List.mem_replicate.mp hmem).2
  · exact heq

theorem coreInv_resetCore {s : State} (h : ShapeOk s) : CoreInv s.resetCore := by
  obtain ⟨hlegal, -, hout, htap, hevt, -⟩ := h
  obtain ⟨-, -, -, -, -, -, -, -, -, hscale, -⟩ := id hlegal
  have hvacant : Vacant s.resetCore := ⟨rfl, rfl, fun k _ => by rw [slot_resetCore]; rfl⟩
  refine coreInv_of_vacant hvacant ⟨hlegal, by simp, hout, htap, hevt, ?_, ?_, ?_, ?_⟩ ?_ ?_
  · simp [Fc.reset]
  · simp [Fc.reset]
  · simp [Fc.reset]
  · simp
  · show 0 < 1000000 * (s.cfg.ppmScale : Int) + 0
    omega
  · simp [TunerOk, Fc.reset]

/-! ### The locked setter (43_fc.md R248) -/

theorem slot_freqCommit (s : State) (f u : Int) (k : Nat) :
    (s.freqCommit f u).slot k = reprogram (s.freqCommit f u).fc (s.slot k) :=
  slot_map_slots s rfl k

/-- A commit at a frequency that passed the range test and keeps the window. What it does not need is a tuner already
at its value or mixers already at their offsets: it sets both. -/
theorem coreInv_freqCommit {s : State} {f u : Int} (hshape : ShapeOk s) (hppm : PpmOk s) (halloc : AllocOk s)
    (hrate : RateOk s) (hcfgd : ∀ k < s.cfg.nsrc, (s.slot k).live = true → (s.slot k).mix.cfgd = true)
    (hwindow : s.active ≠ [] → inWindow s.fc.halfwin s.active f = true) (hlow : -2 ^ 63 ≤ f) (hhigh : f < 2 ^ 63)
    (hcheck : freqCheck s f s.fc.ppm.toInt = .ok u) : CoreInv (s.freqCommit f u) := by
  have hf : (s64 f).toInt = f := toInt_s64 hlow hhigh
  obtain ⟨hresolve, hmin, hmax⟩ := freqCheck_ok hcheck
  have hu : (s64 u).toInt = u :=
    toInt_s64 ((BitVec.le_toInt s.fc.min).trans hmin) (hmax.trans_lt BitVec.toInt_lt)
  refine ⟨?_, hppm, ?_, ?_, hrate, ?_, ?_⟩
  · simpa [ShapeOk, freqCommit_eq] using hshape
  · intro _
    simp only [State.freqCommit_fc, State.freqCommit_cfg, hu, hf]
    exact ⟨hmin, hmax, hresolve⟩
  · refine allocOk_of_sameSource halloc rfl rfl rfl fun k => ?_
    rw [slot_freqCommit]
    exact sameSource_reprogram _ _
  · rw [mixerOk_iff]
    intro k hk
    rw [slot_freqCommit]
    exact programmed_reprogram (hcfgd k hk)
  · intro hne
    refine ⟨rfl, ?_⟩
    simp only [State.freqCommit_fc, State.freqCommit_active, hf]
    exact hwindow hne

/-! ### Release (44_alloc.md R287) -/

theorem slot_release_ne {s : State} {j k : Nat} (h : j ≠ k) : (s.release k).slot j = s.slot j :=
  slot_setSlot_ne h _

theorem live_slot_release {s : State} {j k : Nat} (hj : j < s.slots.length)
    (hlive : ((s.release k).slot j).live = true) : j ≠ k := by
  rintro rfl
  have hstopped : (s.release j).slot j =
      { s.slot j with src := { (s.slot j).src with state := .stopped, q := [] } } := slot_setSlot_same hj _
  simp [hstopped, Slot.live] at hlive

theorem mem_active_release {s : State} {k : Nat} {c : Channel} :
    c ∈ (s.release k).active ↔ c ∈ s.active ∧ c.slot.toNat ≠ k := by
  simp

theorem allocOk_release {s : State} (hlen : s.slots.length = s.cfg.nsrc) (h : AllocOk s) (k : Nat) :
    AllocOk (s.release k) := by
  obtain ⟨hsorted, hdistinct, hentry, howner, hlock⟩ := h
  refine ⟨hsorted.filter _, hdistinct.filter _, fun c hc => ?_, fun j hj hlive => ?_, ?_⟩
  · obtain ⟨hc, hne⟩ := mem_active_release.mp hc
    rw [slot_release_ne hne]
    exact hentry c hc
  · have hne : j ≠ k := live_slot_release (by rwa [hlen]) hlive
    rw [slot_release_ne hne] at hlive
    obtain ⟨c, hc, rfl⟩ := howner j hj hlive
    exact ⟨c, mem_active_release.mpr ⟨hc, hne⟩, rfl⟩
  · rw [release_eq]
    dsimp only
    split
    · rename_i hempty
      simpa using hempty
    · rename_i hne
      have hactive : s.active ≠ [] := fun hnil => hne (by simp [hnil])
      simpa [hlock.mpr hactive] using hne

theorem coreInv_release {s : State} (h : CoreInv s) (k : Nat) : CoreInv (s.release k) := by
  obtain ⟨hshape, hppm, htuner, halloc, hrate, hmixer, hwindow⟩ := h
  obtain ⟨-, hlen, -⟩ := id hshape
  have hstill : (s.release k).active ≠ [] → s.active ≠ [] := fun hne hnil => hne (by simp [hnil])
  refine ⟨?_, hppm, htuner, allocOk_release hlen halloc k, fun hne => hrate (hstill hne), fun j hj hlive => ?_,
    fun hne => ⟨(hwindow (hstill hne)).1, ?_⟩⟩
  · simpa [ShapeOk, release_eq] using hshape
  · have hne : j ≠ k := live_slot_release (by rwa [hlen]) hlive
    rw [slot_release_ne hne] at hlive ⊢
    exact hmixer j hj hlive
  · have hall := List.all_eq_true.mp (hwindow (hstill hne)).2
    exact List.all_eq_true.mpr fun c hc => hall c (mem_active_release.mp hc).1

/-! ### Allocation (44_alloc.md R280 to R285) -/

theorem insertChannel_perm (ch : Channel) (cs : List Channel) : (insertChannel ch cs).Perm (ch :: cs) := by
  rw [insertChannel_eq]
  exact List.perm_middle.trans (by rw [List.takeWhile_append_dropWhile])

/-- A center that `Place` answers has passed the window test (44_alloc.md R275). -/
theorem inWindow_of_place {half bo c : Int} {chs : List Channel} (hne : chs ≠ [])
    (h : place half bo chs = some c) : inWindow half chs c = true := by
  unfold place at h
  split at h
  · exact absurd rfl hne
  · split at h
    · cases h
      assumption
    · cases h
  · simp only at h
    split at h
    · cases h
    split at h
    · cases h
    split at h
    · cases h
      assumption
    · cases h

/-- The usable bandwidth is a fraction of the rate, so the half window is below `2^31` (10_state.md R33). -/
theorem halfwin_lt {fc : Fc} (hnum : fc.ufNum.toNat ≤ fc.ufDen.toNat) : fc.halfwin < 2 ^ 31 := by
  have husable : fc.usable ≤ fc.rate.toNat :=
    Nat.div_le_of_le_mul (by rw [Nat.mul_comm]; exact Nat.mul_le_mul_right _ hnum)
  have hrate := fc.rate.isLt
  unfold Fc.halfwin
  omega

/-- A center within the window of a legal channel fits the frequency register. -/
theorem center_fits {half c : Int} {chs : List Channel} {ch : Channel} (hin : inWindow half chs c = true)
    (hmem : ch ∈ chs) (hlegal : legalFreq ch.freq = true) (hhalf : half < 2 ^ 31) : -2 ^ 63 ≤ c ∧ c < 2 ^ 63 := by
  have hch : c - half ≤ ch.low ∧ ch.high ≤ c + half := by simpa using List.all_eq_true.mp hin ch hmem
  have hbw : 0 ≤ halfOf ch.bw := Int.natCast_nonneg _
  obtain ⟨hmin, hmax⟩ := (legalFreq_iff ch.freq).mp hlegal
  unfold Channel.low Channel.high at hch
  omega

/-- The state of `ALLOC.GETSOURCE` after its registers and before its retune (44_alloc.md R283). -/
def claimed (s : State) (r : BitVec 16) (freq : BitVec 64) (bw pass stop : Word) (g : Grant) : State :=
  { s with
    active := g.proposed
    fc := { s.fc with locked := true }
    cache := cacheAfter s s.fc.rate r g.plan }.setSlot g.slot (freshSource s freq bw g.center r pass stop g.plan)

section
variable {s : State} {r : BitVec 16} {freq : BitVec 64} {bw pass stop : Word} {g : Grant}

theorem grant_of_no_retune (h : g.tuned = none) :
    s.grant r freq bw pass stop g = claimed s r freq bw pass stop g := by
  unfold State.grant
  rw [h]
  rfl

theorem grant_of_retune {u : Int} (h : g.tuned = some u) :
    s.grant r freq bw pass stop g = (claimed s r freq bw pass stop g).freqCommit g.center u := by
  unfold State.grant
  rw [h]
  rfl

theorem slot_claimed_same (h : g.slot < s.slots.length) :
    (claimed s r freq bw pass stop g).slot g.slot = freshSource s freq bw g.center r pass stop g.plan :=
  slot_setSlot_same (s := { s with active := _, fc := _, cache := _ }) h _

theorem slot_claimed_ne {j : Nat} (h : j ≠ g.slot) : (claimed s r freq bw pass stop g).slot j = s.slot j :=
  slot_setSlot_ne (s := { s with active := _, fc := _, cache := _ }) h _

theorem shapeOk_claimed (h : ShapeOk s) : ShapeOk (claimed s r freq bw pass stop g) := by
  obtain ⟨hlegal, hslots, hout, htap, hevt, hmask, hden, hnum, hcache⟩ := h
  exact ⟨hlegal, by simpa [claimed] using hslots, hout, htap, hevt, hmask, hden, hnum,
    length_cacheAfter_le hcache _ _ _⟩

/-- The new channel takes a slot that no active channel holds, so the set stays in step with the live slots. -/
theorem allocOk_claimed (hlegal : s.cfg.Legal) (hlen : s.slots.length = s.cfg.nsrc) (h : AllocOk s)
    (hg : allocate s r freq bw pass stop = .ok g) : AllocOk (claimed s r freq bw pass stop g) := by
  obtain ⟨hsorted, hdistinct, hentry, howner, -⟩ := h
  obtain ⟨-, hfreq, hnew, hfree, hproposed, -⟩ := allocate_ok hg
  obtain ⟨hslot, hdead, -⟩ := freeSlot_eq_some hfree
  have hactive : (claimed s r freq bw pass stop g).active =
      insertChannel ⟨freq, bw, BitVec.ofNat 8 g.slot⟩ s.active := hproposed
  have hnum : (BitVec.ofNat 8 g.slot).toNat = g.slot := by
    obtain ⟨⟨-, hnsrc⟩, -⟩ := hlegal
    rw [BitVec.toNat_ofNat]
    exact Nat.mod_eq_of_lt (by omega)
  have hself : (claimed s r freq bw pass stop g).slot g.slot = freshSource s freq bw g.center r pass stop g.plan :=
    slot_claimed_same (by rwa [hlen])
  have hother : ∀ c ∈ s.active, c.slot.toNat ≠ g.slot := by
    intro c hc heq
    obtain ⟨-, -, hlive, -⟩ := hentry c hc
    simp [heq, hdead] at hlive
  rw [AllocOk, hactive]
  refine ⟨pairwise_insertChannel hsorted hnew, ?_, fun c hc => ?_, fun k hk hlive => ?_, ?_⟩
  · refine ((insertChannel_perm _ _).pairwise_iff Ne.symm).mpr
      (List.pairwise_cons.mpr ⟨fun c hc heq => ?_, hdistinct⟩)
    exact hother c hc (by rw [← heq, hnum])
  · rcases mem_insertChannel.mp hc with rfl | hc
    · rw [hnum, hself]
      exact ⟨hfreq, hslot, rfl, rfl, rfl⟩
    · rw [slot_claimed_ne (hother c hc)]
      exact hentry c hc
  · by_cases hkg : k = g.slot
    · exact ⟨_, mem_insertChannel.mpr (.inl rfl), hnum.trans hkg.symm⟩
    · rw [slot_claimed_ne hkg] at hlive
      obtain ⟨c, hc, hck⟩ := howner k hk hlive
      exact ⟨c, mem_insertChannel.mpr (.inr hc), hck⟩
  · exact iff_of_true rfl (List.ne_nil_of_mem (mem_insertChannel.mpr (.inl rfl)))

/-- Without a retune the new mixer starts at its offset from the tuner frequency, which is the center. -/
theorem mixerOk_claimed (hlen : s.slots.length = s.cfg.nsrc) (h : MixerOk s) (hcenter : g.center = s.fc.freq.toInt) :
    MixerOk (claimed s r freq bw pass stop g) := by
  intro k hk hlive
  by_cases hkg : k = g.slot
  · subst hkg
    rw [slot_claimed_same (by rwa [hlen])]
    exact ⟨rfl, by simp [freshSource, hcenter, claimed, Src.reset]⟩
  · rw [slot_claimed_ne hkg] at hlive ⊢
    exact h k hk hlive

theorem cfgd_claimed (hlen : s.slots.length = s.cfg.nsrc) (h : MixerOk s) (k : Nat) (hk : k < s.cfg.nsrc)
    (hlive : ((claimed s r freq bw pass stop g).slot k).live = true) :
    ((claimed s r freq bw pass stop g).slot k).mix.cfgd = true := by
  by_cases hkg : k = g.slot
  · subst hkg
    rw [slot_claimed_same (by rwa [hlen])]
    rfl
  · rw [slot_claimed_ne hkg] at hlive ⊢
    exact (h k hk hlive).1

theorem coreInv_grant (h : CoreInv s) (hg : allocate s r freq bw pass stop = .ok g) :
    CoreInv (s.grant r freq bw pass stop g) := by
  obtain ⟨hshape, hppm, htuner, halloc, -, hmixer, -⟩ := h
  obtain ⟨hlegal, hlen, -, -, -, -, -, hnum, -⟩ := id hshape
  obtain ⟨hrate, hfreq, -, -, hproposed, hplace, hretune, -⟩ := allocate_ok hg
  have hmem : ⟨freq, bw, BitVec.ofNat 8 g.slot⟩ ∈ g.proposed := by
    rw [hproposed]
    exact mem_insertChannel.mpr (.inl rfl)
  have hin : inWindow s.fc.halfwin g.proposed g.center = true := inWindow_of_place (List.ne_nil_of_mem hmem) hplace
  have hclaimed := allocOk_claimed hlegal hlen halloc hg
  rcases hretune with ⟨htuned, hvalid, hcenter⟩ | ⟨u, htuned, hcheck⟩
  · rw [grant_of_no_retune htuned]
    exact ⟨shapeOk_claimed hshape, hppm, htuner, hclaimed, fun _ => hrate, mixerOk_claimed hlen hmixer hcenter,
      fun _ => ⟨hvalid, hcenter ▸ hin⟩⟩
  · rw [grant_of_retune htuned]
    obtain ⟨hlow, hhigh⟩ := center_fits hin hmem hfreq (halfwin_lt hnum)
    exact coreInv_freqCommit (shapeOk_claimed hshape) hppm hclaimed (fun _ => hrate) (cfgd_claimed hlen hmixer)
      (fun _ => hin) hlow hhigh hcheck

end

/-! ### Commands of the controller -/

/-- `FC.SETFREQ` passes the lock test only in a core with no source. -/
theorem coreInv_setfreq {s : State} {f : BitVec 64} {u : Int} (h : CoreInv s) (hl : s.fc.locked = false)
    (hcheck : freqCheck s f.toInt s.fc.ppm.toInt = .ok u) : CoreInv (s.freqCommit f.toInt u) := by
  obtain ⟨hshape, hppm, -, halloc, hrate, hmixer, -⟩ := h
  exact coreInv_freqCommit hshape hppm halloc hrate (fun k hk hlive => (hmixer k hk hlive).1)
    (fun hne => absurd (vacant_of_unlocked halloc hl).active hne) (BitVec.le_toInt f) BitVec.toInt_lt hcheck

/-- `FC.SETPPM` with a valid frequency retunes at the frequency the controller has, so the window stays. -/
theorem coreInv_setppm {s : State} {ppm : Word} {u : Int} (h : CoreInv s) (hppm : 0 < ppmWhole s.cfg + ppm.toInt)
    (hcheck : freqCheck s s.fc.freq.toInt ppm.toInt = .ok u) :
    CoreInv (({ s with fc := { s.fc with ppm := ppm } } : State).freqCommit s.fc.freq.toInt u) := by
  obtain ⟨hshape, -, -, halloc, hrate, hmixer, hwindow⟩ := h
  exact coreInv_freqCommit hshape hppm halloc hrate (fun k hk hlive => (hmixer k hk hlive).1)
    (fun hne => (hwindow hne).2) (BitVec.le_toInt s.fc.freq) BitVec.toInt_lt hcheck

/-- `FC.SETPPM` before any frequency: there is no tuned value to correct. -/
theorem coreInv_setppm_of_not_valid {s : State} {ppm : Word} (h : CoreInv s) (hppm : 0 < ppmWhole s.cfg + ppm.toInt)
    (hvalid : s.fc.freqValid = false) : CoreInv { s with fc := { s.fc with ppm := ppm } } := by
  obtain ⟨hshape, -, -, halloc, hrate, hmixer, hwindow⟩ := h
  exact ⟨hshape, hppm, fun hv => absurd (hvalid.symm.trans hv) (by decide), halloc, hrate, hmixer, hwindow⟩

/-! ### Every command -/

/-- A command on a slot keeps every source, apart from `SRC.STOP`, which ends one. -/
theorem keeps_of_done_slot {i : Instr} {s t : State} (hi : slotField i ≠ none) (hstop : ∀ k, i ≠ .srcStop k)
    (hd : Done i s t) : Keeps s t := by
  cases i <;> simp only [slotField, ne_eq, not_true_eq_false, reduceCtorEq] at hi
  case srcStart k =>
    obtain ⟨-, hidle, rfl⟩ := hd
    refine keeps_put ?_ _
    exact keepsSource_of_eq (by simp [Slot.live, hidle]) rfl rfl rfl rfl rfl
  case srcStop k => exact absurd rfl (hstop k)
  case srcDrain k =>
    obtain ⟨-, -, w, rfl, rfl⟩ := hd
    exact (keeps_store (keepsSource_foldl (keepsSource_drainBuffer s.fc s.cfg) (workOn _) _)).answering _
  case srcStatus k =>
    obtain ⟨-, rfl⟩ := hd
    refine keeps_put ?_ _
    exact keepsSource_of_eq rfl rfl rfl rfl rfl rfl
  case srcAttach k consumer tap =>
    obtain ⟨-, rfl⟩ := hd
    refine keeps_put ?_ _
    exact keepsSource_of_eq rfl rfl rfl rfl rfl rfl
  case srcSetcorr k corr =>
    obtain ⟨-, -, rfl⟩ := hd
    refine keeps_put ?_ _
    exact ⟨⟨rfl, rfl, rfl⟩, fun hp hlive => ⟨(hp hlive).1, rfl⟩⟩
  case mixSetfreq k f rate =>
    obtain ⟨⟨-, hstate⟩, -, -, rfl⟩ := hd
    refine keeps_put ?_ _
    exact keepsSource_of_not_live ((live_false_iff _).mpr hstate) rfl
  case mixNext k =>
    obtain ⟨-, -, rfl⟩ := hd
    refine keeps_put ?_ _
    exact keepsSource_of_eq rfl rfl rfl rfl rfl rfl
  case mixStep k x =>
    obtain ⟨-, -, rfl⟩ := hd
    refine keeps_put ?_ _
    exact keepsSource_of_eq rfl rfl rfl rfl rfl rfl
  case mixGetstate k =>
    obtain ⟨-, rfl⟩ := hd
    exact (Keeps.refl s).answering _
  case cicCfg k r rate pass stop =>
    obtain ⟨-, -, p, -, rfl⟩ := hd
    refine keeps_cacheAfter_put ?_ _ _ _ _
    exact keepsSource_of_units rfl rfl
  case cicPush k x =>
    obtain ⟨-, -, w, rfl, rfl⟩ := hd
    exact (keeps_store (keepsSource_pushOne s.fc s.cfg (workOn _) x)).answering _
  case cicPushblk k xs =>
    obtain ⟨-, -, w, rfl, rfl⟩ := hd
    exact (keeps_store (keepsSource_foldl (keepsSource_pushOne s.fc s.cfg) (workOn _) xs)).answering _
  case cicGetcfg k n =>
    obtain ⟨-, rfl⟩ := hd
    exact (Keeps.refl s).answering _
  case pskCfg k sps ted alpha beta fmax gainmu gainomega =>
    obtain ⟨-, -, -, rfl⟩ := hd
    refine keeps_put ?_ _
    exact keepsSource_of_units rfl rfl
  case pskStep k x =>
    obtain ⟨-, -, rfl⟩ := hd
    exact (keeps_store (keepsSource_pskOne s.fc s.cfg (workOn _) x)).answering _
  case pskStepblk k xs =>
    obtain ⟨-, -, w, rfl, rfl⟩ := hd
    exact (keeps_store (keepsSource_foldl (keepsSource_pskOne s.fc s.cfg) (workOn _) xs)).answering _
  case pskGetstate k =>
    obtain ⟨-, rfl⟩ := hd
    exact (Keeps.refl s).answering _

/-- The invariants do not read the responses. -/
theorem coreInv_answering {s : State} (h : CoreInv s) (rs : List Word) : CoreInv (s.answering rs) := h

/-- The commands without a SLOT field: SYS, FC, ALLOC and the feed. -/
theorem coreInv_of_done_control {i : Instr} {s t : State} (hi : slotField i = none) (h : CoreInv s)
    (hd : Done i s t) : CoreInv t := by
  obtain ⟨hshape, hppm, htuner, halloc, hrate, hmixer, hwindow⟩ := id h
  obtain ⟨hlegal, hslots, hout, htap, hevt, hmask, hden, hnum, hcache⟩ := id hshape
  cases i <;> simp only [slotField, reduceCtorEq] at hi
  case sysNop =>
    obtain rfl := hd
    exact coreInv_answering h _
  case sysReset =>
    obtain rfl := hd
    exact coreInv_answering (coreInv_resetCore hshape) _
  case sysStatus =>
    obtain rfl := hd
    exact h
  case sysInfo =>
    obtain rfl := hd
    exact coreInv_answering h _
  case fcGetfreq =>
    obtain rfl := hd
    exact coreInv_answering h _
  case fcSetfreq f =>
    obtain ⟨hl, -, u, hcheck, rfl⟩ := hd
    exact coreInv_answering (coreInv_setfreq h hl hcheck) _
  case fcGetrate =>
    obtain rfl := hd
    exact coreInv_answering h _
  case fcSetrate rate =>
    obtain ⟨hl, -, rfl⟩ := hd
    obtain ⟨hlocked, hactive, hlive⟩ := vacant_of_unlocked halloc hl
    exact coreInv_of_vacant ⟨hlocked, hactive, hlive⟩ hshape hppm htuner
  case fcSetppm ppm =>
    obtain ⟨hpos, ⟨hvalid, rfl⟩ | ⟨-, u, hcheck, rfl⟩⟩ := hd
    · exact coreInv_answering (coreInv_setppm_of_not_valid h hpos hvalid) _
    · exact coreInv_answering (coreInv_setppm h hpos hcheck) _
  case fcSetbounds min max =>
    obtain ⟨hl, -, -, -, hbounds, rfl⟩ := hd
    obtain ⟨hlocked, hactive, hlive⟩ := vacant_of_unlocked halloc hl
    refine coreInv_of_vacant ⟨hlocked, hactive, hlive⟩ hshape hppm fun hvalid => ?_
    obtain ⟨hmin, hmax⟩ := hbounds hvalid
    obtain ⟨-, -, htuned⟩ := htuner hvalid
    exact ⟨hmin, hmax, htuned⟩
  case fcSetblackout bw =>
    obtain ⟨-, rfl⟩ := hd
    exact h
  case fcSetusable num den =>
    obtain ⟨hl, hden', hnum', rfl⟩ := hd
    obtain ⟨hlocked, hactive, hlive⟩ := vacant_of_unlocked halloc hl
    exact coreInv_of_vacant ⟨hlocked, hactive, hlive⟩
      ⟨hlegal, hslots, hout, htap, hevt, hmask, hden', hnum', hcache⟩ hppm htuner
  case fcGetstate =>
    obtain rfl := hd
    exact coreInv_answering h _
  case fcListen mask =>
    obtain ⟨hmask', rfl⟩ := hd
    exact ⟨⟨hlegal, hslots, hout, htap, hevt, hmask', hden, hnum, hcache⟩, hppm, htuner, halloc, hrate, hmixer,
      hwindow⟩
  case allocGetsource r freq bw pass stop =>
    obtain ⟨g, hg, rfl⟩ := hd
    exact coreInv_answering (coreInv_grant h hg) _
  case allocRelease freq =>
    obtain ⟨-, rfl⟩ | ⟨e, -, -, rfl⟩ := hd
    · exact coreInv_answering h _
    · exact coreInv_answering (coreInv_release h _) _
  case allocQuery index =>
    obtain rfl := hd
    exact coreInv_answering h _
  case srcFeed x =>
    obtain ⟨-, -, rfl⟩ := hd
    exact coreInv_of_keeps h (((keeps_feed s x).emitWarn _).answering _)

theorem coreInv_of_done {i : Instr} {s t : State} (h : CoreInv s) (hd : Done i s t) : CoreInv t := by
  by_cases hi : slotField i = none
  · exact coreInv_of_done_control hi h hd
  by_cases hstop : ∃ k, i = .srcStop k
  · obtain ⟨k, rfl⟩ := hstop
    obtain ⟨-, -, rfl⟩ := hd
    exact coreInv_answering (coreInv_release h _) _
  · exact coreInv_of_keeps h (keeps_of_done_slot hi (fun k hk => hstop ⟨k, hk⟩) hd)

/-- Error entry writes the error registers and the response, which the invariants do not read. -/
theorem coreInv_raise {s : State} (h : CoreInv s) (w : Word) (e : Status) : CoreInv (s.raise w e) := h

theorem coreInv_consume {s : State} (h : CoreInv s) (rest : List Word) : CoreInv (s.consume rest) := h

theorem coreInv_of_exec {i : Instr} {s t : State} (h : CoreInv s) (hx : exec i s = .next t) : CoreInv t := by
  rcases exec_cases hx with ⟨e, -, rfl⟩ | hd
  · exact coreInv_raise h _ e
  · exact coreInv_of_done h hd

/-- Settles O55: a step waits, rejects a header, or executes a command, and each keeps the invariants. -/
theorem stepKeepsTunerAndAllocator : Obligations.StepKeepsTunerAndAllocator := by
  intro s t h hstep
  unfold step at hstep
  split at hstep
  · cases hstep
    exact h
  · cases hstep
  · cases hstep
    exact coreInv_raise (coreInv_consume h _) _ .illegal
  · exact coreInv_of_exec (coreInv_consume h _) hstep

end Sys2Proof.Proofs.TunerAndAllocator
end

section
/-! PROOF. The prime table is a sieve of the numbers up to 2801, and the factors of a supported ratio come out of it and
multiply to the ratio (41_cic.md R151 to R153). -/

namespace Sys2Proof.Proofs.PrimeTable

open Sys2Proof.Machine

/-! ### The table against a sieve -/

/-- No divisor from 2 to 52 whose square is at most `n`: trial division that is complete below 53² = 2809. -/
def sifted (n : Nat) : Bool := (List.range' 2 51).all fun m => decide (n < m * m) || n % m != 0

theorem sifted_iff (n : Nat) : sifted n = true ↔ ∀ m, 2 ≤ m → m < 53 → m * m ≤ n → ¬ m ∣ n := by
  simp [sifted, List.mem_range'_1, Nat.dvd_iff_mod_eq_zero, or_iff_not_imp_left]

theorem prime_iff_sifted {n : Nat} (h : n < 53 * 53) : n.Prime ↔ 2 ≤ n ∧ sifted n = true := by
  rw [Nat.prime_def_le_sqrt, sifted_iff]
  refine and_congr_right fun _ => ⟨fun hp m h2 _ hm => hp m h2 (Nat.le_sqrt.mpr hm), fun hp m h2 hm => ?_⟩
  have hsq : m * m ≤ n := Nat.le_sqrt.mp hm
  exact hp m h2 (Nat.mul_self_lt_mul_self_iff.mp (hsq.trans_lt h)) hsq

/-- The one computation over the literal table; all that is said of the table follows from it. -/
theorem primeTable_eq_filter : primeTable = (List.range' 2 2800).filter sifted := by decide +kernel

theorem mem_primeTable_iff (p : Nat) : p ∈ primeTable ↔ p.Prime ∧ p ≤ 2801 := by
  rw [primeTable_eq_filter, List.mem_filter, List.mem_range'_1]
  constructor
  · rintro ⟨⟨hlow, hhigh⟩, hs⟩
    exact ⟨(prime_iff_sifted (by omega)).mpr ⟨hlow, hs⟩, by omega⟩
  · rintro ⟨hp, hhigh⟩
    obtain ⟨hlow, hs⟩ := (prime_iff_sifted (by omega)).mp hp
    exact ⟨⟨hlow, by omega⟩, hs⟩

theorem primeTable_ascending : primeTable.Pairwise (· < ·) := by
  rw [primeTable_eq_filter]
  exact List.Pairwise.filter _ (List.pairwise_lt_range' 1)

/-- Settles O39: the table is what a sieve leaves of an ascending range. -/
theorem primeTableHoldsThePrimes : Obligations.PrimeTableHoldsThePrimes :=
  ⟨mem_primeTable_iff, primeTable_ascending, by decide +kernel⟩

/-! ### The factors of a ratio -/

theorem divideOut_prod (p n r : Nat) : (divideOut p n r).1.prod * (divideOut p n r).2 = r := by
  induction n generalizing r with
  | zero => simp [divideOut]
  | succ n ih =>
    unfold divideOut
    split
    · next hr => simp [Nat.mul_assoc, ih, Nat.mul_div_cancel' (Nat.dvd_of_mod_eq_zero hr)]
    · simp

theorem eq_of_mem_divideOut {p n r f : Nat} (hf : f ∈ (divideOut p n r).1) : f = p := by
  induction n generalizing r with
  | zero => simp [divideOut] at hf
  | succ n ih =>
    unfold divideOut at hf
    split at hf
    · exact (List.mem_cons.mp hf).elim id ih
    · simp at hf

theorem trialDivide_cons (p : Nat) (ps : List Nat) (r : Nat) :
    trialDivide (p :: ps) r =
      ((divideOut p (r.log2 + 1) r).1 ++ (trialDivide ps (divideOut p (r.log2 + 1) r).2).1,
        (trialDivide ps (divideOut p (r.log2 + 1) r).2).2) := rfl

theorem trialDivide_prod (ps : List Nat) (r : Nat) : (trialDivide ps r).1.prod * (trialDivide ps r).2 = r := by
  induction ps generalizing r with
  | nil => simp [trialDivide]
  | cons p ps ih => simp [trialDivide_cons, Nat.mul_assoc, ih, divideOut_prod]

theorem mem_of_mem_trialDivide {ps : List Nat} {r f : Nat} (hf : f ∈ (trialDivide ps r).1) : f ∈ ps := by
  induction ps generalizing r with
  | nil => simp [trialDivide] at hf
  | cons p ps ih =>
    rw [trialDivide_cons] at hf
    rcases List.mem_append.mp hf with hf | hf
    · exact eq_of_mem_divideOut hf ▸ List.mem_cons_self
    · exact List.mem_cons_of_mem p (ih hf)

/-- What the factors of a supported ratio are: primes of the table whose product is the ratio. -/
theorem of_supported {r : Nat} {fs : List Nat} (h : supported r = some fs) :
    fs.prod = r ∧ ∀ f ∈ fs, f.Prime ∧ f ≤ 2801 := by
  unfold supported at h
  split at h
  · simp only [factor] at h
    split at h
    · next hleft =>
      have hprod := trialDivide_prod primeTable r
      rw [hleft, Nat.mul_one] at hprod
      obtain rfl := Option.some.inj h
      exact ⟨hprod, fun f hf => (mem_primeTable_iff f).mp (mem_of_mem_trialDivide hf)⟩
    · cases h
  · cases h

end Sys2Proof.Proofs.PrimeTable
end

section
/-! PROOF. Every counter of a new decimator is a division of the number of samples pushed (41_cic.md R180).

After `n` samples a Decimating Stage of factor `f` has its counter at `n mod f` and has passed on `n div f` samples,
which is the number the next stage has seen; the block former counts the samples of the output stage in the same way. -/

namespace Sys2Proof.Proofs.Decimation

open Sys2Proof.Machine

/-! ### A counter that wraps at `f` -/

section
variable {n f : Nat}

theorem mod_add_one_eq_iff (hf : 0 < f) : n % f + 1 = f ↔ f ∣ n + 1 := by
  obtain ⟨f, rfl⟩ := Nat.exists_eq_succ_of_ne_zero hf.ne'
  rw [Nat.dvd_iff_mod_eq_zero, Nat.succ_mod_succ_eq_zero_iff, Nat.succ_inj]

theorem wrapped_count (hf : 0 < f) : (if n % f + 1 = f then 0 else n % f + 1) = (n + 1) % f := by
  have hlt := Nat.mod_lt n hf
  rw [← Nat.mod_add_mod]
  split
  · next h => rw [h, Nat.mod_self]
  · exact (Nat.mod_eq_of_lt (by omega)).symm

end

/-! ### One Decimating Stage and the chain -/

/-- The counter of a Decimating Stage wraps at its factor, and the stage passes a sample on when it does (R161). -/
theorem decStageStep_counts (d : DecStage) (x : C32) :
    (decStageStep d x).1.fact = d.fact ∧
    (decStageStep d x).1.dcnt = (if d.dcnt + 1 = d.fact.toNat then 0 else d.dcnt + 1) ∧
    ((decStageStep d x).2.isSome ↔ d.dcnt + 1 = d.fact.toNat) := by
  simp only [decStageStep]
  split <;> simp_all

/-- A chain of Decimating Stages with the factors `fs`, each counter where `n` samples into the chain leave it. -/
inductive ChainAt : Nat → List Nat → List DecStage → Prop
  | nil (n : Nat) : ChainAt n [] []
  | cons {n f : Nat} {fs : List Nat} {d : DecStage} {ds : List DecStage} (hfact : d.fact.toNat = f) (hf : 0 < f)
      (hcount : d.dcnt = n % f) (hrest : ChainAt (n / f) fs ds) : ChainAt n (f :: fs) (d :: ds)

theorem chainAt_fresh (order : Nat) {fs : List Nat} (h : ∀ f ∈ fs, f.Prime ∧ f ≤ 2801) :
    ChainAt 0 fs (fs.map (freshDecStage order)) := by
  induction fs with
  | nil => exact .nil 0
  | cons f fs ih =>
    obtain ⟨hf, hle⟩ := h f List.mem_cons_self
    refine .cons ?_ hf.pos (Nat.zero_mod f).symm ?_
    · simp only [freshDecStage, BitVec.toNat_ofNat]
      exact Nat.mod_eq_of_lt (by omega)
    · rw [Nat.zero_div]
      exact ih fun g hg => h g (List.mem_cons_of_mem f hg)

/-- One more sample moves every counter of the chain on, and leaves the chain exactly when the ratio divides its
number. -/
theorem chainAt_step {n : Nat} {fs : List Nat} {ds : List DecStage} (h : ChainAt n fs ds) (x : C32) :
    ChainAt (n + 1) fs (chainStep ds x).1 ∧ ((chainStep ds x).2.isSome ↔ fs.prod ∣ n + 1) := by
  induction h generalizing x with
  | nil n => exact ⟨.nil _, by simp [chainStep]⟩
  | @cons n f fs d ds hfact hf hcount hrest ih =>
    obtain ⟨hfact', hcount', hkept⟩ := decStageStep_counts d x
    rw [hfact, hcount, wrapped_count hf] at hcount'
    rw [hfact, hcount, mod_add_one_eq_iff hf] at hkept
    rw [← hfact'] at hfact
    rw [List.prod_cons]
    unfold chainStep
    rcases hstep : decStageStep d x with ⟨d', _ | y⟩ <;> rw [hstep] at hfact hcount' hkept
    · have hdvd : ¬ f ∣ n + 1 := by simpa using hkept
      refine ⟨.cons hfact hf hcount' ?_, by simpa using fun h => hdvd (dvd_of_mul_right_dvd h)⟩
      rw [Nat.succ_div_of_not_dvd hdvd]
      exact hrest
    · have hdvd : f ∣ n + 1 := by simpa using hkept
      have hnext := Nat.succ_div_of_dvd hdvd
      obtain ⟨hchain, hout⟩ := ih y
      rw [← hnext] at hchain hout
      exact ⟨.cons hfact hf hcount' hchain, hout.trans (Nat.dvd_div_iff_mul_dvd hdvd)⟩

/-! ### One pushed sample -/

section
variable {c : Config} {u : Cic} {x : C32}

/-- A sample that the chain drops stops there (R173). -/
theorem cicRun_of_dropped (h : ¬ (chainStep u.ds x).2.isSome) :
    (cicRun c u x).nout = 0 ∧ (cicRun c u x).cic.ds = (chainStep u.ds x).1 ∧
    (cicRun c u x).cic.blkn = u.blkn ∧ (cicRun c u x).blk = none := by
  unfold cicRun
  split <;> simp_all

/-- A sample that leaves the chain is one sample of the output stage, whose counter wraps at `OUT_BLOCK` (R169). -/
theorem cicRun_of_kept (h : (chainStep u.ds x).2.isSome) :
    (cicRun c u x).nout = 1 ∧ (cicRun c u x).cic.ds = (chainStep u.ds x).1 ∧
    (cicRun c u x).cic.blkn = (if u.blkn + 1 = c.outBlock then 0 else u.blkn + 1) ∧
    ((cicRun c u x).blk.isSome ↔ u.blkn + 1 = c.outBlock) := by
  unfold cicRun
  split
  · simp_all
  · simp only [firStep, blockPut]
    split <;> simp_all

end

theorem pushOne_counts (c : Config) (w : Work) (x : C32) :
    (pushOne c w x).nout = w.nout + (cicRun c w.sl.cic x).nout ∧
    (pushOne c w x).nblk = w.nblk + (if (cicRun c w.sl.cic x).blk.isSome then 1 else 0) := by
  simp only [pushOne]
  split <;> simp_all

/-! ### A run of samples -/

/-- Work on a decimator with the factors `fs` that was new `n` samples ago: its counters, and the counts of samples and
blocks so far. -/
structure CountsAt (c : Config) (fs : List Nat) (n : Nat) (w : Work) : Prop where
  chain : ChainAt n fs w.sl.cic.ds
  blkn : w.sl.cic.blkn = n / fs.prod % c.outBlock
  nout : w.nout = n / fs.prod
  nblk : w.nblk = n / fs.prod / c.outBlock

theorem countsAt_pushOne {c : Config} (hblock : 0 < c.outBlock) {fs : List Nat} {n : Nat} {w : Work}
    (h : CountsAt c fs n w) (x : C32) : CountsAt c fs (n + 1) (pushOne c w x) := by
  obtain ⟨hchain, hblkn, hnout, hnblk⟩ := h
  obtain ⟨hchain', hkept⟩ := chainAt_step hchain x
  obtain ⟨hnout', hnblk'⟩ := pushOne_counts c w x
  have hcic : (pushOne c w x).sl.cic = (cicRun c w.sl.cic x).cic := by rw [pushOne_sl]
  by_cases hdvd : fs.prod ∣ n + 1
  · obtain ⟨hone, hds, hwrap, hfull⟩ := cicRun_of_kept (c := c) (hkept.mpr hdvd)
    rw [hblkn, wrapped_count hblock] at hwrap
    rw [hblkn, mod_add_one_eq_iff hblock] at hfull
    have hdiv := Nat.succ_div_of_dvd hdvd
    refine ⟨by rwa [hcic, hds], by rw [hcic, hwrap, hdiv], by rw [hnout', hone, hnout, hdiv], ?_⟩
    simp only [hnblk', hfull, hnblk, hdiv, Nat.succ_div]
  · obtain ⟨hzero, hds, hsame, hnone⟩ := cicRun_of_dropped (c := c) (mt hkept.mp hdvd)
    have hdiv := Nat.succ_div_of_not_dvd hdvd
    exact ⟨by rwa [hcic, hds], by rw [hcic, hsame, hblkn, hdiv], by rw [hnout', hzero, hnout, hdiv, Nat.add_zero],
      by simp [hnblk', hnone, hnblk, hdiv]⟩

theorem countsAt_foldl {c : Config} (hblock : 0 < c.outBlock) {fs : List Nat} {n : Nat} {w : Work}
    (h : CountsAt c fs n w) (xs : List C32) : CountsAt c fs (n + xs.length) (xs.foldl (pushOne c) w) := by
  induction xs generalizing n w with
  | nil => exact h
  | cons x xs ih =>
    rw [List.length_cons, ← Nat.add_assoc, Nat.add_right_comm]
    exact ih (countsAt_pushOne hblock h x)

theorem countsAt_fresh {c : Config} {fs : List Nat} {sl : Slot} {rate : Word} {r : BitVec 16} {pass stop : Word}
    {taps : List F32} (h : sl.cic = cicInit c rate r pass stop fs taps) (hfs : ∀ f ∈ fs, f.Prime ∧ f ≤ 2801) :
    CountsAt c fs 0 (workOn sl) := by
  refine ⟨?_, ?_, ?_, ?_⟩
  · rw [workOn_sl, h]
    exact chainAt_fresh c.cicOrder hfs
  · simp [h, cicInit]
  · simp [workOn]
  · simp [workOn]

/-! ### The command -/

/-- `CIC.PUSHBLK` on a configured standalone slot answers the counts of its work (R175). -/
theorem exec_cicPushblk {k : BitVec 8} {s : State} (hk : Standalone s k) (hcfgd : (s.slot k.toNat).cic.cfgd = true)
    (xs : List C32) :
    let w := xs.foldl (pushOne s.cfg) (workOn (s.slot k.toNat))
    exec (.cicPushblk k xs) s = .next ((s.store k.toNat w).answering [u32 w.nout, u32 w.nblk]) := by
  simp [exec, execCicPushblk, withStandalone_of_standalone hk, hcfgd, succeed_eq]

/-- Settles O41: the counts of the block's work, from the new decimator on. -/
theorem decimatorKeepsEveryRthSample : Obligations.DecimatorKeepsEveryRthSample := by
  intro k r rate pass stop fs taps xs s hlegal hk hsup hcic
  obtain ⟨hprod, hprimes⟩ := PrimeTable.of_supported hsup
  obtain ⟨-, -, ⟨hblock, -⟩, -⟩ := hlegal
  obtain ⟨-, -, hnout, hnblk⟩ := countsAt_foldl hblock (countsAt_fresh hcic hprimes) xs
  rw [Nat.zero_add, hprod] at hnout hnblk
  refine ⟨_, exec_cicPushblk hk (by rw [hcic]; rfl) xs, ?_⟩
  rw [answering_resp, State.store_resp, hnout, hnblk, Nat.div_div_eq_div_mul]
  rfl

end Sys2Proof.Proofs.Decimation
end

section
/-! PROOF. An operation of the sample arithmetic rounds its exact result once, and rounding is monotone (00_scope.md
R9).

Magnitude bits order the magnitudes, and `roundBits` passes no datum that the exact magnitude does not pass. So a result
stays between any two finite data that the exact result lies between, and a result that is a datum is exact. Bounds on
a computation follow from bounds in the rationals. -/

namespace Sys2Proof.Proofs.Rounding

open Sys2Proof.Machine

/-! ### Magnitudes -/

/-- The units of 2^-149 that magnitude bits stand for: `magUnits` as a function of the bits. -/
def unitsOfBits (b : Nat) : Nat :=
  if b / 2 ^ 23 = 0 then b else (2 ^ 23 + b % 2 ^ 23) * 2 ^ (b / 2 ^ 23 - 1)

theorem magUnits_eq (a : F32) : magUnits a = unitsOfBits (magBits a) := rfl

/-- `m` quanta of `2^q` units have the bits `q·2^23 + m`, also where the significand is full and the exponent grows. -/
theorem unitsOfBits_quanta {q m : Nat} (hm : m ≤ 2 ^ 24) (hq : q = 0 ∨ 2 ^ 23 ≤ m) :
    unitsOfBits (q * 2 ^ 23 + m) = m * 2 ^ q := by
  unfold unitsOfBits
  rcases Nat.lt_or_ge m (2 ^ 23) with hsmall | hlarge
  · obtain rfl : q = 0 := by omega
    rw [Nat.zero_mul, Nat.zero_add, if_pos (Nat.div_eq_of_lt hsmall), pow_zero, Nat.mul_one]
  rcases Nat.lt_or_eq_of_le hm with hlt | rfl
  · rw [show (q * 2 ^ 23 + m) / 2 ^ 23 = q + 1 by omega, show (q * 2 ^ 23 + m) % 2 ^ 23 = m - 2 ^ 23 by omega,
      Nat.add_sub_cancel' hlarge]
    simp
  · rw [show (q * 2 ^ 23 + 2 ^ 24) / 2 ^ 23 = q + 2 by omega, show (q * 2 ^ 23 + 2 ^ 24) % 2 ^ 23 = 0 by omega,
      if_neg (by omega), show q + 2 - 1 = q + 1 by omega, pow_succ]
    omega

/-- Every bit pattern is a number of quanta below a full significand. -/
theorem exists_quanta (b : Nat) : ∃ q m, b = q * 2 ^ 23 + m ∧ m < 2 ^ 24 ∧ (q = 0 ∨ 2 ^ 23 ≤ m) :=
  ⟨b / 2 ^ 23 - 1, b - (b / 2 ^ 23 - 1) * 2 ^ 23, by omega, by omega, by omega⟩

theorem unitsOfBits_strictMono : StrictMono unitsOfBits := by
  refine strictMono_nat_of_lt_succ fun b => ?_
  obtain ⟨q, m, rfl, hm, hq⟩ := exists_quanta b
  rw [unitsOfBits_quanta hm.le hq, Nat.add_assoc, unitsOfBits_quanta hm (by omega)]
  exact Nat.mul_lt_mul_of_pos_right (Nat.lt_succ_self m) (Nat.two_pow_pos q)

/-! ### Rounding of a magnitude -/

section
variable {n d : Nat}

/-- The quantum is the one at which the whole quanta of `n / d` fill a significand, or the smallest. -/
theorem quanta_of_quantumExp (n d : Nat) :
    n / (d * 2 ^ quantumExp n d) < 2 ^ 24 ∧ (quantumExp n d = 0 ∨ 2 ^ 23 ≤ n / (d * 2 ^ quantumExp n d)) := by
  rw [← Nat.div_div_eq_div_mul, quantumExp]
  generalize n / d = u
  rw [Nat.div_lt_iff_lt_mul (Nat.two_pow_pos _), Nat.le_div_iff_mul_le (Nat.two_pow_pos _), ← pow_add, ← pow_add]
  rcases Nat.lt_or_ge u.log2 23 with hsmall | hlarge
  · have hu := Nat.lt_log2_self (n := u)
    have := Nat.pow_le_pow_right (n := 2) (by omega) (show u.log2 + 1 ≤ 24 + (u.log2 - 23) by omega)
    exact ⟨by omega, .inl (by omega)⟩
  · have hne : u ≠ 0 := by rintro rfl; simp at hlarge
    rw [show 24 + (u.log2 - 23) = u.log2 + 1 by omega, show 23 + (u.log2 - 23) = u.log2 by omega]
    exact ⟨Nat.lt_log2_self, .inr (Nat.log2_self_le hne)⟩

/-- Rounding takes the whole quanta of `n / d`, or one more when there is a rest. -/
theorem roundBits_cases (hd : 0 < d) :
    ∃ q m, m < 2 ^ 24 ∧ (q = 0 ∨ 2 ^ 23 ≤ m) ∧ d * (m * 2 ^ q) ≤ n ∧ n < d * ((m + 1) * 2 ^ q) ∧
      (roundBits n d = min 0x7F800000 (q * 2 ^ 23 + m) ∨
        (d * (m * 2 ^ q) < n ∧ roundBits n d = min 0x7F800000 (q * 2 ^ 23 + (m + 1)))) := by
  obtain ⟨hm, hq⟩ := quanta_of_quantumExp n d
  have hstep : 0 < d * 2 ^ quantumExp n d := Nat.mul_pos hd (Nat.two_pow_pos _)
  have hsplit := Nat.div_add_mod n (d * 2 ^ quantumExp n d)
  have hrest := Nat.mod_lt n hstep
  have hassoc (k : Nat) : d * (k * 2 ^ quantumExp n d) = d * 2 ^ quantumExp n d * k := by
    rw [Nat.mul_comm k, Nat.mul_assoc]
  refine ⟨_, _, hm, hq, ?_, ?_, ?_⟩
  · rw [hassoc]
    exact Nat.mul_div_le _ _
  · rw [hassoc, Nat.mul_succ]
    omega
  · rw [hassoc]
    simp only [roundBits]
    split
    · exact .inr ⟨by omega, rfl⟩
    · exact .inl rfl

/-- Rounding does not pass a datum that is at least the exact magnitude. -/
theorem roundBits_le_of_le (hd : 0 < d) {b : Nat} (h : n ≤ d * unitsOfBits b) : roundBits n d ≤ b := by
  obtain ⟨q, m, hm, hq, hlow, -, hround⟩ := roundBits_cases (n := n) hd
  rw [← unitsOfBits_quanta hm.le hq] at hlow
  have hb : q * 2 ^ 23 + m ≤ b :=
    unitsOfBits_strictMono.le_iff_le.mp (Nat.le_of_mul_le_mul_left (hlow.trans h) hd)
  rcases hround with hround | ⟨hrest, hround⟩
  · omega
  · rw [← unitsOfBits_quanta hm.le hq] at hrest
    have := unitsOfBits_strictMono.lt_iff_lt.mp (Nat.lt_of_mul_lt_mul_left (hrest.trans_le h))
    omega

/-- Rounding does not fall below a datum that is at most the exact magnitude. -/
theorem le_roundBits_of_le (hd : 0 < d) {b : Nat} (hb : b ≤ 0x7F800000) (h : d * unitsOfBits b ≤ n) :
    b ≤ roundBits n d := by
  obtain ⟨q, m, hm, hq, -, hhigh, hround⟩ := roundBits_cases (n := n) hd
  rw [← unitsOfBits_quanta hm (by omega)] at hhigh
  have := unitsOfBits_strictMono.lt_iff_lt.mp (Nat.lt_of_mul_lt_mul_left (h.trans_lt hhigh))
  omega

end

/-! ### The order of the data -/

theorem unitsOfBits_zero : unitsOfBits 0 = 0 := rfl

/-- A magnitude with a sign. -/
def signed (neg : Bool) (n : Nat) : Int := if neg then -(n : Int) else n

@[simp] theorem signed_false (n : Nat) : signed false n = n := if_neg Bool.false_ne_true

@[simp] theorem signed_true (n : Nat) : signed true n = -(n : Int) := if_pos rfl

theorem signed_not (neg : Bool) (n : Nat) : signed (!neg) n = -signed neg n := by cases neg <;> simp

theorem signed_natAbs (z : Int) : signed (decide (z < 0)) z.natAbs = z := by
  simp only [signed, decide_eq_true_eq]
  split <;> omega

theorem units_eq (a : F32) : units a = signed (signBit a) (unitsOfBits (magBits a)) := rfl

theorem orderOf_eq (a : F32) : Machine.orderOf a = signed (signBit a) (magBits a) := rfl

theorem units_le_iff (a b : F32) : units a ≤ units b ↔ Machine.orderOf a ≤ Machine.orderOf b := by
  have hab := unitsOfBits_strictMono.le_iff_le (a := magBits a) (b := magBits b)
  have hba := unitsOfBits_strictMono.le_iff_le (a := magBits b) (b := magBits a)
  have ha := unitsOfBits_strictMono.le_iff_le (a := magBits a) (b := 0)
  have hb := unitsOfBits_strictMono.le_iff_le (a := magBits b) (b := 0)
  rw [unitsOfBits_zero] at ha hb
  rw [units_eq, units_eq, orderOf_eq, orderOf_eq]
  cases signBit a <;> cases signBit b <;> simp only [signed_false, signed_true] <;> omega

theorem valueOf_le_iff_units (a b : F32) : valueOf a ≤ valueOf b ↔ units a ≤ units b := by
  rw [valueOf, valueOf, div_le_div_iff_of_pos_right (by positivity), Int.cast_le]

/-- The data have the order of their values (00_scope.md R11). -/
theorem valueOf_le_iff (a b : F32) : valueOf a ≤ valueOf b ↔ Machine.orderOf a ≤ Machine.orderOf b :=
  (valueOf_le_iff_units a b).trans (units_le_iff a b)

/-! ### Data between two finite data -/

/-- `a` is finite and lies between the data `lo` and `hi`. -/
structure Between (lo hi a : F32) : Prop where
  finite : isFinite a = true
  low : valueOf lo ≤ valueOf a
  high : valueOf a ≤ valueOf hi

theorem isFinite_iff (a : F32) :
    isFinite a = true ↔ -(unitsOfBits 0x7F800000 : Int) < units a ∧ units a < unitsOfBits 0x7F800000 := by
  have h := unitsOfBits_strictMono.lt_iff_lt (a := magBits a) (b := 0x7F800000)
  rw [isFinite, decide_eq_true_iff, ← h, units_eq]
  cases signBit a <;> simp only [signed_false, signed_true] <;> omega

theorem isFinite_of_units {lo hi a : F32} (hlo : isFinite lo = true) (hhi : isFinite hi = true)
    (hlow : units lo ≤ units a) (hhigh : units a ≤ units hi) : isFinite a = true := by
  rw [isFinite_iff] at hlo hhi ⊢
  omega

theorem between_of_value {lo hi a : F32} (hlo : isFinite lo = true) (hhi : isFinite hi = true)
    (hlow : valueOf lo ≤ valueOf a) (hhigh : valueOf a ≤ valueOf hi) : Between lo hi a :=
  ⟨isFinite_of_units hlo hhi ((valueOf_le_iff_units _ _).mp hlow) ((valueOf_le_iff_units _ _).mp hhigh), hlow, hhigh⟩

/-! ### Rounding with a sign -/

/-- The datum `r` is the exact `x` rounded once, from a fraction of units of 2^-149 (00_scope.md R9). -/
def Rounded (r : F32) (x : ℚ) : Prop :=
  ∃ neg n d, 0 < d ∧ r = roundUnits neg n d ∧ x = (signed neg n : ℚ) / d / 2 ^ 149

section
variable {neg : Bool} {n d : Nat} {b : F32}

theorem units_roundUnits (neg : Bool) (n d : Nat) :
    units (roundUnits neg n d) = signed neg (unitsOfBits (roundBits n d)) := by
  have := roundBits_le n d
  rw [units_eq, signBit_roundUnits, roundUnits, magBits_ofSignMag neg (by omega)]

theorem units_roundUnits_le (hd : 0 < d) (hb : isFinite b = true) (h : signed neg n ≤ d * units b) :
    units (roundUnits neg n d) ≤ units b := by
  have hb : magBits b < 0x7F800000 := by simpa [isFinite] using hb
  have hmono := unitsOfBits_strictMono.monotone
  rw [units_roundUnits]
  rw [units_eq] at h ⊢
  cases neg <;> cases hs : signBit b <;> simp only [hs, signed_false, signed_true, mul_neg] at h ⊢
  case false.false => exact_mod_cast hmono (roundBits_le_of_le hd (by exact_mod_cast h))
  case false.true =>
    have hsum : ((n + d * unitsOfBits (magBits b) : Nat) : Int) ≤ 0 := by
      push_cast
      omega
    have hzero : n + d * unitsOfBits (magBits b) = 0 := by omega
    obtain ⟨rfl, hu⟩ := Nat.add_eq_zero_iff.mp hzero
    have hround := hmono (roundBits_le_of_le (n := 0) hd (b := 0) (Nat.zero_le _))
    rw [unitsOfBits_zero] at hround
    have := (Nat.mul_eq_zero.mp hu).resolve_left hd.ne'
    omega
  case true.false => omega
  case true.true =>
    exact neg_le_neg (by exact_mod_cast hmono (le_roundBits_of_le hd hb.le (by exact_mod_cast neg_le_neg_iff.mp h)))

theorem units_roundUnits_not (neg : Bool) (n d : Nat) :
    units (roundUnits (!neg) n d) = -units (roundUnits neg n d) := by
  rw [units_roundUnits, units_roundUnits, signed_not]

/-- The lower bound is the upper bound of the negations. -/
theorem le_units_roundUnits (hd : 0 < d) (hb : isFinite b = true) (h : d * units b ≤ signed neg n) :
    units b ≤ units (roundUnits neg n d) := by
  have hneg := units_roundUnits_le (neg := !neg) (n := n) (b := fneg b) hd ((isFinite_fneg b).trans hb)
    (by rw [units_fneg, mul_neg, signed_not]; exact neg_le_neg h)
  rw [units_roundUnits_not, units_fneg] at hneg
  exact neg_le_neg_iff.mp hneg

end

/-- A rounded result stays between finite data that the exact one lies between. -/
theorem Rounded.between {r lo hi : F32} {x : ℚ} (h : Rounded r x) (hlo : isFinite lo = true)
    (hhi : isFinite hi = true) (hlow : valueOf lo ≤ x) (hhigh : x ≤ valueOf hi) : Between lo hi r := by
  obtain ⟨neg, n, d, hd, rfl, rfl⟩ := h
  have hd' : (0 : ℚ) < d := by exact_mod_cast hd
  rw [valueOf, div_le_div_iff_of_pos_right (by positivity), le_div_iff₀' hd'] at hlow
  rw [valueOf, div_le_div_iff_of_pos_right (by positivity), div_le_iff₀' hd'] at hhigh
  exact between_of_value hlo hhi
    ((valueOf_le_iff_units _ _).mpr (le_units_roundUnits hd hlo (by exact_mod_cast hlow)))
    ((valueOf_le_iff_units _ _).mpr (units_roundUnits_le hd hhi (by exact_mod_cast hhigh)))

/-- A result that is a datum is not rounded. -/
theorem Rounded.valueOf_eq {r a : F32} (h : Rounded r (valueOf a)) (ha : isFinite a = true) :
    isFinite r = true ∧ valueOf r = valueOf a := by
  obtain ⟨hfin, hlow, hhigh⟩ := h.between ha ha le_rfl le_rfl
  exact ⟨hfin, le_antisymm hhigh hlow⟩

/-! ### The operations on finite data -/

theorem not_isNaN_of_isFinite {a : F32} (h : isFinite a = true) : isNaN a = false := by
  simp only [isFinite, isNaN, decide_eq_true_eq, decide_eq_false_iff_not] at h ⊢
  omega

theorem not_isInf_of_isFinite {a : F32} (h : isFinite a = true) : isInf a = false := by
  simp only [isFinite, isInf, decide_eq_true_eq, decide_eq_false_iff_not] at h ⊢
  omega

@[simp] theorem valueOf_fneg (a : F32) : valueOf (fneg a) = -valueOf a := by
  simp [valueOf, neg_div]

theorem zeroOf_eq_roundUnits (neg : Bool) : zeroOf neg = roundUnits neg 0 1 := by cases neg <;> rfl

section
variable {a b : F32} (ha : isFinite a = true) (hb : isFinite b = true)
include ha hb

theorem rounded_addCore (onNaN : F32) : Rounded (addCore onNaN a b) (valueOf a + valueOf b) := by
  rw [valueOf, valueOf, ← add_div, ← Int.cast_add, addCore, not_isInf_of_isFinite ha, not_isInf_of_isFinite hb]
  simp only [Bool.false_eq_true, and_self, if_false]
  split
  · next hzero => exact ⟨_, 0, 1, one_pos, zeroOf_eq_roundUnits _, by rw [hzero]; cases signBit a && signBit b <;> simp⟩
  · refine ⟨_, _, 1, one_pos, rfl, ?_⟩
    rw [Nat.cast_one, div_one, signed_natAbs]

theorem rounded_fadd : Rounded (fadd a b) (valueOf a + valueOf b) := by
  simpa [fadd, not_isNaN_of_isFinite ha, not_isNaN_of_isFinite hb] using rounded_addCore ha hb _

theorem rounded_fsub : Rounded (fsub a b) (valueOf a - valueOf b) := by
  have hb' : isFinite (fneg b) = true := by rwa [isFinite_fneg]
  simpa [fsub, not_isNaN_of_isFinite ha, not_isNaN_of_isFinite hb, sub_eq_add_neg] using rounded_addCore ha hb' _

theorem rounded_fmul : Rounded (fmul a b) (valueOf a * valueOf b) := by
  simp only [fmul, not_isNaN_of_isFinite ha, not_isNaN_of_isFinite hb, not_isInf_of_isFinite ha,
    not_isInf_of_isFinite hb, Bool.false_eq_true, or_self, if_false]
  refine ⟨_, _, 2 ^ 149, Nat.two_pow_pos 149, rfl, ?_⟩
  rw [valueOf, valueOf, div_mul_div_comm, ← Int.cast_mul, Nat.cast_pow, Nat.cast_ofNat, div_div]
  congr 2
  rw [units_eq, units_eq]
  cases signBit a <;> cases signBit b <;> simp [magUnits_eq]

end

theorem rounded_i2f (n : Int) : Rounded (i2f n) n := by
  refine ⟨decide (n < 0), n.natAbs * 2 ^ 149, 1, one_pos, rfl, ?_⟩
  have hscale : signed (decide (n < 0)) (n.natAbs * 2 ^ 149) = n * 2 ^ 149 := by
    simp only [signed, decide_eq_true_eq]
    split <;> omega
  rw [hscale, Nat.cast_one, div_one, eq_div_iff (by positivity)]
  norm_cast

/-- An integer below 2^24 is a datum (00_scope.md R12). -/
theorem exists_datum {n : Nat} (h : n < 2 ^ 24) : ∃ a : F32, isFinite a = true ∧ valueOf a = n := by
  rcases Nat.eq_zero_or_pos n with rfl | hpos
  · exact ⟨fZERO, by decide, by decide +kernel⟩
  have hlog : n.log2 < 24 := (Nat.log2_lt hpos.ne').mpr h
  obtain ⟨j, hj⟩ := Nat.exists_eq_add_of_le (Nat.le_of_lt_succ hlog)
  have hlow : 2 ^ 23 ≤ n * 2 ^ j := by
    rw [hj, pow_add]
    exact Nat.mul_le_mul_right _ (Nat.log2_self_le hpos.ne')
  have hhigh : n * 2 ^ j < 2 ^ 24 := by
    rw [show 24 = n.log2 + 1 + j by omega, pow_add]
    exact Nat.mul_lt_mul_of_pos_right Nat.lt_log2_self (Nat.two_pow_pos j)
  have hbits : magBits (ofSignMag false ((149 - j) * 2 ^ 23 + n * 2 ^ j)) = (149 - j) * 2 ^ 23 + n * 2 ^ j :=
    magBits_ofSignMag false (by omega)
  refine ⟨ofSignMag false ((149 - j) * 2 ^ 23 + n * 2 ^ j), ?_, ?_⟩
  · rw [isFinite, hbits]
    simp
    omega
  · rw [valueOf, units_eq, signBit_ofSignMag false (by omega), hbits, unitsOfBits_quanta hhigh.le (.inr hlow),
      Nat.mul_assoc, ← pow_add, show j + (149 - j) = 149 by omega]
    rw [signed_false, Nat.cast_mul, Nat.cast_pow, Int.cast_mul, div_eq_iff (by positivity)]
    norm_cast

theorem valueOf_i2f {n : Nat} (h : n < 2 ^ 24) : isFinite (i2f n) = true ∧ valueOf (i2f n) = n := by
  obtain ⟨a, ha, hval⟩ := exists_datum h
  have hround := rounded_i2f n
  rw [Int.cast_natCast, ← hval] at hround
  rw [← hval]
  exact hround.valueOf_eq ha

/-! ### Comparing, negating, clamping (R11, R13) -/

theorem fle_iff {a b : F32} (ha : isFinite a = true) (hb : isFinite b = true) :
    fle a b = true ↔ valueOf a ≤ valueOf b := by
  simp [fle, not_isNaN_of_isFinite ha, not_isNaN_of_isFinite hb, valueOf_le_iff]

/-- Without a NaN, what is not less is at least, the infinities included. -/
theorem not_flt_iff {a b : F32} (ha : isNaN a = false) (hb : isNaN b = false) :
    ¬ flt a b = true ↔ valueOf b ≤ valueOf a := by
  simp [flt, ha, hb, valueOf_le_iff]

theorem flt_iff {a b : F32} (ha : isFinite a = true) (hb : isFinite b = true) :
    flt a b = true ↔ valueOf a < valueOf b := by
  rw [← not_iff_not, not_flt_iff (not_isNaN_of_isFinite ha) (not_isNaN_of_isFinite hb), not_lt]

theorem between_iff_fle {lo hi a : F32} (hlo : isFinite lo = true) (hhi : isFinite hi = true) :
    Between lo hi a ↔ fle lo a = true ∧ fle a hi = true := by
  constructor
  · rintro ⟨ha, hlow, hhigh⟩
    exact ⟨(fle_iff hlo ha).mpr hlow, (fle_iff ha hhi).mpr hhigh⟩
  · intro ⟨hlow, hhigh⟩
    simp only [fle, Bool.and_eq_true, decide_eq_true_eq] at hlow hhigh
    exact between_of_value hlo hhi ((valueOf_le_iff _ _).mpr hlow.2) ((valueOf_le_iff _ _).mpr hhigh.2)

theorem magBits_fabs (a : F32) : magBits (fabs a) = magBits a := by
  have h : (fabs a).setWidth 31 = a.setWidth 31 := by
    rw [fabs, BitVec.setWidth_and, show (0x7FFFFFFF#32).setWidth 31 = BitVec.allOnes 31 by decide,
      BitVec.and_allOnes]
  have := congrArg BitVec.toNat h
  simpa [magBits, BitVec.toNat_setWidth] using this

theorem signBit_fabs (a : F32) : signBit (fabs a) = false := by
  rw [signBit, fabs, BitVec.msb_and, show (0x7FFFFFFF#32).msb = false by decide, Bool.and_false]

theorem valueOf_fabs (a : F32) : valueOf (fabs a) = |valueOf a| := by
  have hunits : units (fabs a) = |units a| := by
    rw [units_eq, units_eq, magBits_fabs, signBit_fabs]
    cases signBit a <;> simp
  rw [valueOf, valueOf, hunits, abs_div, Int.cast_abs, abs_of_pos (by positivity : (0 : ℚ) < 2 ^ 149)]

/-- Clamping anything but a NaN gives a datum within the bounds. -/
theorem between_clampF {lo hi a : F32} (hlo : isFinite lo = true) (hhi : isFinite hi = true)
    (hle : valueOf lo ≤ valueOf hi) (ha : isNaN a = false) : Between lo hi (clampF a lo hi) := by
  unfold clampF
  split
  · exact ⟨hlo, le_rfl, hle⟩
  split
  · exact ⟨hhi, hle, le_rfl⟩
  · next hlow hhigh =>
    exact between_of_value hlo hhi ((not_flt_iff ha (not_isNaN_of_isFinite hlo)).mp hlow)
      ((not_flt_iff (not_isNaN_of_isFinite hhi) ha).mp hhigh)

/-! ### Magnitude bounds -/

/-- `a` is finite and of magnitude at most `b`. -/
abbrev Within (b a : F32) : Prop := Between (fneg b) b a

theorem Within.abs_valueOf_le {a b : F32} (h : Within b a) : |valueOf a| ≤ valueOf b := by
  obtain ⟨-, hlow, hhigh⟩ := h
  exact abs_le.mpr ⟨valueOf_fneg b ▸ hlow, hhigh⟩

theorem within_iff_fle_fabs {a b : F32} (hb : isFinite b = true) : Within b a ↔ fle (fabs a) b = true := by
  have hfabs : isFinite (fabs a) = isFinite a := by rw [isFinite, isFinite, magBits_fabs]
  constructor
  · intro h
    rw [fle_iff (hfabs.trans h.finite) hb, valueOf_fabs]
    exact h.abs_valueOf_le
  · intro h
    simp only [fle, Bool.and_eq_true, decide_eq_true_eq] at h
    rw [← valueOf_le_iff, valueOf_fabs, abs_le, ← valueOf_fneg] at h
    exact between_of_value ((isFinite_fneg b).trans hb) hb h.2.1 h.2.2

theorem Rounded.within {r b : F32} {x : ℚ} (h : Rounded r x) (hb : isFinite b = true) (hx : |x| ≤ valueOf b) :
    Within b r := by
  obtain ⟨hlow, hhigh⟩ := abs_le.mp hx
  exact h.between ((isFinite_fneg b).trans hb) hb (valueOf_fneg b ▸ hlow) hhigh

/-- A result between two naturals is rounded to a datum between them. -/
theorem Rounded.between_nat {r : F32} {x : ℚ} (h : Rounded r x) {m n : Nat} (hm : m < 2 ^ 24) (hn : n < 2 ^ 24)
    (hlow : m ≤ x) (hhigh : x ≤ n) : Between (i2f m) (i2f n) r := by
  obtain ⟨hmfin, hmval⟩ := valueOf_i2f hm
  obtain ⟨hnfin, hnval⟩ := valueOf_i2f hn
  exact h.between hmfin hnfin (hmval ▸ hlow) (hnval ▸ hhigh)

/-- The same bounds read as rationals. -/
theorem Between.nat_bounds {m n : Nat} {a : F32} (h : Between (i2f m) (i2f n) a) (hm : m < 2 ^ 24)
    (hn : n < 2 ^ 24) : m ≤ valueOf a ∧ valueOf a ≤ n :=
  ⟨(valueOf_i2f hm).2 ▸ h.low, (valueOf_i2f hn).2 ▸ h.high⟩

theorem Between.widen {lo hi lo' hi' lo'' hi'' a : F32} (h : Between lo hi a) (hlo : Between lo' lo'' lo)
    (hhi : Between hi'' hi' hi) : Between lo' hi' a :=
  ⟨h.finite, hlo.low.trans h.low, h.high.trans hhi.high⟩

/-- `a` is finite and of magnitude at most the natural `n`. -/
structure Small (n : Nat) (a : F32) : Prop where
  finite : isFinite a = true
  abs_le : |valueOf a| ≤ n

theorem small_fadd {m n : Nat} {a b : F32} (ha : Small m a) (hb : Small n b) (hmn : m + n < 2 ^ 24) :
    Small (m + n) (fadd a b) := by
  obtain ⟨hfin, hval⟩ := valueOf_i2f hmn
  have hsum : |valueOf a + valueOf b| ≤ ((m + n : Nat) : ℚ) := by
    rw [Nat.cast_add]
    exact (abs_add_le _ _).trans (add_le_add ha.abs_le hb.abs_le)
  have h := (rounded_fadd ha.finite hb.finite).within hfin (hval ▸ hsum)
  exact ⟨h.finite, hval ▸ h.abs_valueOf_le⟩

/-! ### The integer part -/

theorem f2iFloor_eq {a : F32} (h : isFinite a = true) : f2iFloor a = ⌊valueOf a⌋ := by
  rw [f2iFloor, if_pos h, valueOf]
  exact_mod_cast (Rat.floor_intCast_div_natCast (units a) (2 ^ 149)).symm

/-- A datum from 1 on is a multiple of 2^-23. -/
theorem dvd_units_of_one_le {a : F32} (h : 2 ^ 149 ≤ units a) : 2 ^ 126 ∣ units a := by
  obtain ⟨q, m, hb, hm, hq⟩ := exists_quanta (magBits a)
  rw [units_eq, hb, unitsOfBits_quanta hm.le hq] at h ⊢
  cases hs : signBit a <;> simp only [hs, signed_false, signed_true] at h ⊢
  · have hlt : 2 ^ 149 < 2 ^ (24 + q) := calc
      2 ^ 149 ≤ m * 2 ^ q := by exact_mod_cast h
      _ < 2 ^ 24 * 2 ^ q := Nat.mul_lt_mul_of_pos_right hm (Nat.two_pow_pos q)
      _ = 2 ^ (24 + q) := (pow_add _ _ _).symm
    have hq : 149 < 24 + q := (Nat.pow_lt_pow_iff_right (by decide)).mp hlt
    exact_mod_cast (pow_dvd_pow 2 (by omega : 126 ≤ q)).trans (Dvd.intro_left m rfl)
  · omega

/-- So its fraction is a multiple of 2^-23 too, and at most the greatest one below 1. -/
theorem fract_valueOf_le {a : F32} (h : 1 ≤ valueOf a) : Int.fract (valueOf a) ≤ 1 - 1 / 2 ^ 23 := by
  have hunits : 2 ^ 149 ≤ units a := by
    rw [valueOf, one_le_div (by positivity)] at h
    exact_mod_cast h
  have hdvd := dvd_units_of_one_le hunits
  have hrest : units a % 2 ^ 149 ≤ 2 ^ 149 - 2 ^ 126 := by omega
  have hfract : Int.fract (valueOf a) = (units a % 2 ^ 149 : Int) / 2 ^ 149 := by
    rw [valueOf]
    exact_mod_cast Int.fract_div_intCast_eq_div_intCast_mod (k := ℚ) (m := units a) (n := 2 ^ 149)
  rw [hfract, div_le_iff₀ (by positivity)]
  calc ((units a % 2 ^ 149 : Int) : ℚ) ≤ ((2 ^ 149 - 2 ^ 126 : Int) : ℚ) := by exact_mod_cast hrest
    _ = (1 - 1 / 2 ^ 23) * 2 ^ 149 := by norm_num

end Sys2Proof.Proofs.Rounding
end

section
/-! PROOF. Every step keeps the loop invariant of every configured PSK unit (42_psk.md R225).

The samples reach the loop only as error values in [−1, 1], and the gains are at most one. With that, every sum the loop
forms is finite and small enough for one phase correction, the clamps act on numbers, and the next sampling instant lies
between `SPS − 2` and `SPS + 3`, so that its integer part fits the counter and its fraction stays below one. -/

namespace Sys2Proof.Proofs.LoopInvariant

open Sys2Proof.Machine Sys2Proof.Proofs.Rounding

/-! ### The constants of the loop (00_scope.md R14) -/

theorem valueOf_fZERO : valueOf fZERO = 0 := by decide +kernel

theorem valueOf_fONE : valueOf fONE = 1 := by decide +kernel

theorem valueOf_fTWOPI : valueOf fTWOPI = 2 * valueOf fPI := by decide +kernel

theorem valueOf_fPI_bounds : 3 ≤ valueOf fPI ∧ valueOf fPI ≤ 4 := by decide +kernel

theorem valueOf_fK005_bounds : 0 ≤ valueOf fK005 ∧ valueOf fK005 ≤ 1 / 127 := by decide +kernel

theorem isFinite_fPI : isFinite fPI = true := by decide

theorem isFinite_fONE : isFinite fONE = true := by decide

/-! ### Phase, frequency and error terms -/

/-- One correction brings a phase of magnitude up to 9 back, since 9 ≤ 3π (42_psk.md R195). -/
theorem within_wrapPhase {p : F32} (h : Small 9 p) : Within fPI (wrapPhase p) := by
  obtain ⟨hp, h⟩ := h
  rw [Nat.cast_ofNat] at h
  obtain ⟨hpi, -⟩ := valueOf_fPI_bounds
  obtain ⟨hlow, hhigh⟩ := abs_le.mp h
  have hneg : isFinite (fneg fPI) = true := by decide
  have htwo : isFinite fTWOPI = true := by decide
  unfold wrapPhase
  split
  · next hgt =>
    have hgt := (flt_iff isFinite_fPI hp).mp hgt
    refine (rounded_fsub hp htwo).within isFinite_fPI (abs_le.mpr ?_)
    rw [valueOf_fTWOPI]
    constructor <;> linarith
  split
  · next hlt =>
    have hlt := (flt_iff hp hneg).mp hlt
    rw [valueOf_fneg] at hlt
    refine (rounded_fadd hp htwo).within isFinite_fPI (abs_le.mpr ?_)
    rw [valueOf_fTWOPI]
    constructor <;> linarith
  · next hle hge =>
    exact between_of_value hneg isFinite_fPI
      ((not_flt_iff (not_isNaN_of_isFinite hp) (not_isNaN_of_isFinite hneg)).mp hge)
      ((not_flt_iff (not_isNaN_of_isFinite isFinite_fPI) (not_isNaN_of_isFinite hp)).mp hle)

/-- An error value is in [−1, 1] whatever the samples were (42_psk.md R205). -/
theorem within_sanitize (a : F32) : Within fONE (sanitize a) := by
  have hmone : fneg fONE = fMONE := by decide
  rw [Within, hmone, sanitize]
  split
  · exact ⟨by decide, by decide +kernel, by decide +kernel⟩
  · next ha => exact between_clampF (by decide) (by decide) (by decide +kernel) (by simpa using ha)

/-- A gain is at most one, so it does not enlarge an error value. -/
theorem within_gain_mul {g e : F32} (hg : Between fZERO fONE g) (he : Within fONE e) : Within fONE (fmul g e) := by
  refine (rounded_fmul hg.finite he.finite).within isFinite_fONE ?_
  have hgain : |valueOf g| ≤ 1 := by
    rw [abs_of_nonneg (valueOf_fZERO ▸ hg.low)]
    exact valueOf_fONE ▸ hg.high
  rw [abs_mul, valueOf_fONE]
  exact mul_le_one₀ hgain (abs_nonneg _) (valueOf_fONE ▸ he.abs_valueOf_le)

/-- A legal gain of `PSK.CFG` (R191). -/
theorem between_of_legalGain {g : F32} (h : legalGain g = true) : Between fZERO fONE g :=
  (between_iff_fle (by decide) (by decide)).mpr (by simpa [legalGain] using h)

theorem between_of_legalFmax {f : F32} (h : legalFmax f = true) : Between fZERO fPI f :=
  (between_iff_fle (by decide) (by decide)).mpr (by simpa [legalFmax] using h)

/-! ### The bounds of omega (42_psk.md R192) -/

/-- Half a percent of a legal `SPS` is less than one sample. -/
theorem omegaLimit_bounds {sps : BitVec 8} (h : sps.toNat ≤ 127) :
    Between (i2f (0 : Nat)) (i2f (1 : Nat)) (omegaLimit sps) := by
  obtain ⟨hfin, hval⟩ := valueOf_i2f (n := sps.toNat) (by omega)
  obtain ⟨hlow, hhigh⟩ := valueOf_fK005_bounds
  have hsps : (sps.toNat : ℚ) ≤ 127 := by exact_mod_cast h
  refine (rounded_fmul hfin (by decide)).between_nat (by omega) (by omega) ?_ ?_ <;> rw [hval]
  · rw [Nat.cast_zero]
    positivity
  · calc (sps.toNat : ℚ) * valueOf fK005 ≤ 127 * (1 / 127) := mul_le_mul hsps hhigh hlow (by norm_num)
      _ = (1 : Nat) := by norm_num

/-- What the loop needs to know of its constant registers. -/
structure Bounds (u : Psk) : Prop where
  sps_low : 4 ≤ u.sps.toNat
  sps_high : u.sps.toNat ≤ 127
  alpha : Between fZERO fONE u.alpha
  beta : Between fZERO fONE u.beta
  gainMu : Between fZERO fONE u.gainMu
  gainOmega : Between fZERO fONE u.gainOmega
  fmax : Between fZERO fPI u.fmax
  omegaMin : Between (i2f (u.sps.toNat - 1 : Nat)) (i2f u.sps.toNat) u.omegaMin
  omegaMax : Between (i2f u.sps.toNat) (i2f (u.sps.toNat + 1 : Nat)) u.omegaMax

theorem bounds_of_configured {u : Psk} (h : PskConfigured u) : Bounds u := by
  obtain ⟨hlow, hhigh, halpha, hbeta, hfmax, hmu, homega, hmin, hmax, -⟩ := h
  unfold spsMin at hlow
  unfold spsMax at hhigh
  obtain ⟨hfin, hval⟩ := valueOf_i2f (n := u.sps.toNat) (by omega)
  have hlim := omegaLimit_bounds hhigh
  obtain ⟨hlim0, hlim1⟩ := hlim.nat_bounds (by omega) (by omega)
  rw [Nat.cast_zero] at hlim0
  rw [Nat.cast_one] at hlim1
  refine ⟨hlow, hhigh, between_of_legalGain halpha, between_of_legalGain hbeta, between_of_legalGain hmu,
    between_of_legalGain homega, between_of_legalFmax hfmax, ?_, ?_⟩
  · rw [hmin]
    refine (rounded_fsub hfin hlim.finite).between_nat (by omega) (by omega) ?_ ?_ <;> rw [hval]
    · rw [Nat.cast_sub (by omega), Nat.cast_one]
      linarith
    · linarith
  · rw [hmax]
    refine (rounded_fadd hfin hlim.finite).between_nat (by omega) (by omega) ?_ ?_ <;> rw [hval]
    · linarith
    · rw [Nat.cast_add, Nat.cast_one]
      linarith

/-! ### The registers of the loop -/

/-- The registers of a loop are in range, the period counter apart. -/
structure InRange (u : Psk) : Prop where
  lphase : Within fPI u.lphase
  lfreq : Within u.fmax u.lfreq
  omega : Between u.omegaMin u.omegaMax u.omega
  mu_finite : isFinite u.mu = true
  mu_nonneg : 0 ≤ valueOf u.mu
  mu_lt_one : valueOf u.mu < 1

/-- The loop invariant in terms of values. -/
theorem loopOk_iff (u : Psk) :
    LoopOk u ↔ (u.cfgd = true → PskConfigured u ∧ InRange u ∧ 1 ≤ u.skip.toNat ∧ u.skip.toNat ≤ 2 * u.sps.toNat) := by
  refine imp_congr_right fun _ => and_congr_right fun hcfg => ?_
  have hb := bounds_of_configured hcfg
  constructor
  · rintro ⟨⟨hphase, hfreq, hmu, homega⟩, hphase', hfreq', hmin, hmax, hmu0, hmu1, hskip⟩
    exact ⟨⟨(within_iff_fle_fabs isFinite_fPI).mpr hphase', (within_iff_fle_fabs hb.fmax.finite).mpr hfreq',
      (between_iff_fle hb.omegaMin.finite hb.omegaMax.finite).mpr ⟨hmin, hmax⟩, hmu,
      valueOf_fZERO ▸ (fle_iff (by decide) hmu).mp hmu0, valueOf_fONE ▸ (flt_iff hmu isFinite_fONE).mp hmu1⟩, hskip⟩
  · rintro ⟨⟨hphase, hfreq, homega, hmu, hmu0, hmu1⟩, hskip⟩
    obtain ⟨hmin, hmax⟩ := (between_iff_fle hb.omegaMin.finite hb.omegaMax.finite).mp homega
    exact ⟨⟨hphase.finite, hfreq.finite, hmu, homega.finite⟩, (within_iff_fle_fabs isFinite_fPI).mp hphase,
      (within_iff_fle_fabs hb.fmax.finite).mp hfreq, hmin, hmax, (fle_iff (by decide) hmu).mpr (valueOf_fZERO ▸ hmu0),
      (flt_iff hmu isFinite_fONE).mpr (valueOf_fONE ▸ hmu1), hskip⟩

/-! ### One sample -/

theorem configured_pskAdvance {u : Psk} (h : PskConfigured u) (x : C32) : PskConfigured (pskAdvance u x) := by
  obtain ⟨hlow, hhigh, halpha, hbeta, hfmax, hmu, homega, hmin, hmax, hdl⟩ := h
  exact ⟨hlow, hhigh, halpha, hbeta, hfmax, hmu, homega, hmin, hmax, by simpa [pskAdvance, shiftIn] using hdl⟩

theorem small_of_within_fPI {a : F32} (h : Within fPI a) : Small 4 a :=
  ⟨h.finite, h.abs_valueOf_le.trans valueOf_fPI_bounds.2⟩

theorem small_of_within_fONE {a : F32} (h : Within fONE a) : Small 1 a :=
  ⟨h.finite, h.abs_valueOf_le.trans (by simp [valueOf_fONE])⟩

theorem small_of_within_fmax {fmax a : F32} (hf : Between fZERO fPI fmax) (h : Within fmax a) : Small 4 a :=
  ⟨h.finite, (h.abs_valueOf_le.trans hf.high).trans valueOf_fPI_bounds.2⟩

/-- The carrier step adds two magnitudes up to π (42_psk.md R196). -/
theorem inRange_pskAdvance {u : Psk} (hb : Bounds u) (h : InRange u) (x : C32) : InRange (pskAdvance u x) := by
  have hsum : Small 8 (fadd u.lphase u.lfreq) :=
    small_fadd (small_of_within_fPI h.lphase) (small_of_within_fmax hb.fmax h.lfreq) (by omega)
  exact { h with lphase := within_wrapPhase ⟨hsum.finite, hsum.abs_le.trans (by norm_num)⟩ }

/-! ### The symbol event -/

/-- The Costas update clamps the frequency and wraps a phase of magnitude up to 9 (42_psk.md R203). -/
theorem inRange_costasUpdate {u : Psk} (hb : Bounds u) (h : InRange u) {pe : F32} (he : Within fONE pe) :
    InRange (costasUpdate pe u) := by
  have hstep : Small 5 (fadd u.lfreq (fmul u.beta pe)) :=
    small_fadd (small_of_within_fmax hb.fmax h.lfreq) (small_of_within_fONE (within_gain_mul hb.beta he)) (by omega)
  have hmax : valueOf (fneg u.fmax) ≤ valueOf u.fmax := by
    have := valueOf_fZERO ▸ hb.fmax.low
    rw [valueOf_fneg]
    linarith
  have hfreq : Within u.fmax (costasUpdate pe u).lfreq :=
    between_clampF ((isFinite_fneg _).trans hb.fmax.finite) hb.fmax.finite hmax (not_isNaN_of_isFinite hstep.finite)
  have hinc : Small 5 (fadd (costasUpdate pe u).lfreq (fmul u.alpha pe)) :=
    small_fadd (small_of_within_fmax hb.fmax hfreq)
      (small_of_within_fONE (within_gain_mul hb.alpha he)) (by omega)
  have hphase : Small 9 (fadd u.lphase (fadd (costasUpdate pe u).lfreq (fmul u.alpha pe))) :=
    small_fadd (small_of_within_fPI h.lphase) hinc (by omega)
  exact { h with lphase := within_wrapPhase hphase, lfreq := hfreq }

/-- Omega is within a sample of `SPS`, as its bounds are. -/
theorem omega_near_sps {u : Psk} (hb : Bounds u) {omega : F32} (h : Between u.omegaMin u.omegaMax omega) :
    Between (i2f (u.sps.toNat - 1 : Nat)) (i2f (u.sps.toNat + 1 : Nat)) omega :=
  h.widen hb.omegaMin hb.omegaMax

/-- The omega update clamps (42_psk.md R210). -/
theorem between_omega_clockUpdate {u : Psk} (hb : Bounds u) (h : Between u.omegaMin u.omegaMax u.omega) {te : F32}
    (he : Within fONE te) (cur : C32) : Between u.omegaMin u.omegaMax (clockUpdate te cur u).omega := by
  have hhigh := hb.sps_high
  have hnear := omega_near_sps hb h
  obtain ⟨hlow, hhigh⟩ := hnear.nat_bounds (by omega) (by omega)
  have homega : Small (u.sps.toNat + 1) u.omega :=
    ⟨hnear.finite, by rwa [abs_of_nonneg ((Nat.cast_nonneg _).trans hlow)]⟩
  have hstep := small_fadd homega (small_of_within_fONE (within_gain_mul hb.gainOmega he)) (by omega)
  exact between_clampF hb.omegaMin.finite hb.omegaMax.finite (hb.omegaMin.high.trans hb.omegaMax.low)
    (not_isNaN_of_isFinite hstep.finite)

/-- The distance to the next sampling instant (42_psk.md R215): a fraction, omega, and an error value. -/
theorem instant_bounds {mu omega e : F32} {m n : Nat} (hmu : isFinite mu = true) (hmu0 : 0 ≤ valueOf mu)
    (hmu1 : valueOf mu < 1) (homega : Between (i2f (m + 1 : Nat)) (i2f n) omega) (he : Within fONE e)
    (hm : m + 1 < 2 ^ 24) (hn : n + 2 < 2 ^ 24) :
    Between (i2f m) (i2f (n + 2 : Nat)) (fadd (fadd mu omega) e) := by
  obtain ⟨hlow, hhigh⟩ := homega.nat_bounds (by omega) (by omega)
  rw [Nat.cast_add, Nat.cast_one] at hlow
  have hsum : Between (i2f (m + 1 : Nat)) (i2f (n + 1 : Nat)) (fadd mu omega) := by
    refine (rounded_fadd hmu homega.finite).between_nat (by omega) (by omega) ?_ ?_ <;>
      rw [Nat.cast_add, Nat.cast_one] <;> linarith
  obtain ⟨hslow, hshigh⟩ := hsum.nat_bounds (by omega) (by omega)
  obtain ⟨helow, hehigh⟩ := abs_le.mp (small_of_within_fONE he).abs_le
  push_cast at hslow hshigh helow hehigh
  refine (rounded_fadd hsum.finite he.finite).between_nat (by omega) (by omega) ?_ ?_ <;> push_cast <;> linarith

theorem f2iFloor_bounds {t : F32} {m n : Nat} (ht : Between (i2f m) (i2f n) t) (hm : m < 2 ^ 24) (hn : n < 2 ^ 24) :
    m ≤ f2iFloor t ∧ f2iFloor t ≤ n := by
  obtain ⟨hlow, hhigh⟩ := ht.nat_bounds hm hn
  rw [f2iFloor_eq ht.finite]
  exact ⟨Int.le_floor.mpr hlow, by exact_mod_cast (Int.floor_le _).trans hhigh⟩

/-- The greatest datum below 1 that is a multiple of 2^-23. -/
theorem valueOf_greatest_fraction : valueOf 0x3F7FFFFE#32 = 1 - 1 / 2 ^ 23 := by decide +kernel

/-- What is left of a sampling instant past 1 when its integer part is taken off stays below 1 (42_psk.md R215). -/
theorem fraction_bounds {t : F32} {m n : Nat} (ht : Between (i2f m) (i2f n) t) (hm : 1 ≤ m) (hmn : m ≤ n)
    (hn : n < 2 ^ 24) : Between fZERO 0x3F7FFFFE#32 (fsub t (i2f (f2iFloor t))) := by
  obtain ⟨hlow, hhigh⟩ := f2iFloor_bounds ht (by omega) hn
  obtain ⟨k, hk⟩ := Int.eq_ofNat_of_zero_le ((Int.natCast_nonneg m).trans hlow)
  obtain ⟨hfin, hval⟩ := valueOf_i2f (n := k) (by omega)
  have hone : 1 ≤ valueOf t := le_trans (by exact_mod_cast hm) (ht.nat_bounds (by omega) hn).1
  have hfract : valueOf t - valueOf (i2f (f2iFloor t)) = Int.fract (valueOf t) := by
    rw [hk, hval, Int.fract, ← f2iFloor_eq ht.finite, hk, Int.cast_natCast]
  refine (rounded_fsub ht.finite (hk ▸ hfin)).between (by decide) (by decide) ?_ ?_ <;> rw [hfract]
  · exact valueOf_fZERO ▸ Int.fract_nonneg _
  · exact valueOf_greatest_fraction ▸ fract_valueOf_le hone

/-- The period counter takes an integer part from 1 on as it is (42_psk.md R215). -/
theorem toNat_skip {n : Int} (hlow : 1 ≤ n) (hhigh : n < 2 ^ 16) : (BitVec.ofInt 16 (max 1 n)).toNat = n.toNat := by
  rw [max_eq_right hlow, BitVec.toNat_ofInt, Int.emod_eq_of_lt (by omega) (by exact_mod_cast hhigh)]

/-- The clock update (42_psk.md R210, R215): omega clamped, then an instant whose integer part fits the counter and
whose fraction is below one. -/
theorem clockUpdate_keeps {u : Psk} (hb : Bounds u) (h : InRange u) {te : F32} (he : Within fONE te) (cur : C32) :
    InRange (clockUpdate te cur u) ∧ 1 ≤ (clockUpdate te cur u).skip.toNat ∧
      (clockUpdate te cur u).skip.toNat ≤ 2 * u.sps.toNat := by
  have hlow := hb.sps_low
  have hhigh := hb.sps_high
  have homega := between_omega_clockUpdate hb h.omega he cur
  have hnear : Between (i2f (u.sps.toNat - 2 + 1 : Nat)) (i2f (u.sps.toNat + 1 : Nat))
      (clockUpdate te cur u).omega := by
    rw [show u.sps.toNat - 2 + 1 = u.sps.toNat - 1 by omega]
    exact omega_near_sps hb homega
  have ht := instant_bounds h.mu_finite h.mu_nonneg h.mu_lt_one hnear (within_gain_mul hb.gainMu he) (by omega)
    (by omega)
  have hmu := fraction_bounds ht (by omega) (by omega) (by omega)
  obtain ⟨hn0, hn1⟩ := f2iFloor_bounds ht (by omega) (by omega)
  have hskip := toNat_skip (n := f2iFloor _) (le_trans (by omega) hn0) (hn1.trans_lt (by omega))
  refine ⟨{ h with
    omega := homega
    mu_finite := hmu.finite
    mu_nonneg := valueOf_fZERO ▸ hmu.low
    mu_lt_one := (valueOf_greatest_fraction ▸ hmu.high).trans_lt (by norm_num) }, ?_, ?_⟩
  · exact hskip ▸ by omega
  · exact hskip ▸ by omega

theorem symbolEvent_keeps {u : Psk} (hc : PskConfigured u) (h : InRange u) (e : Nat) :
    InRange (symbolEvent e u).1 ∧ 1 ≤ (symbolEvent e u).1.skip.toNat ∧
      (symbolEvent e u).1.skip.toNat ≤ 2 * u.sps.toNat := by
  have hcostas := inRange_costasUpdate (bounds_of_configured hc) h (within_sanitize (phaseError (curSymbol u)))
  have hc' : PskConfigured (costasUpdate (sanitize (phaseError (curSymbol u))) u) := hc
  exact clockUpdate_keeps (bounds_of_configured hc') hcostas (within_sanitize _) (curSymbol u)

theorem cfgd_pskRun (e : Nat) (u : Psk) (x : C32) : (pskRun e u x).1.cfgd = u.cfgd := by
  unfold pskRun
  simp only
  split <;> rfl

/-- A step of a loop keeps its invariant, whatever the sample (42_psk.md R225). -/
theorem loopOk_pskRun {u : Psk} (h : LoopOk u) (e : Nat) (x : C32) : LoopOk (pskRun e u x).1 := by
  refine (loopOk_iff _).mpr fun hcfgd => ?_
  rw [cfgd_pskRun] at hcfgd
  obtain ⟨hc, hr, hlow, hhigh⟩ := (loopOk_iff u).mp h hcfgd
  have hc' := configured_pskAdvance hc x
  have hr' := inRange_pskAdvance (bounds_of_configured hc) hr x
  unfold pskRun
  simp only
  split
  · exact ⟨hc', symbolEvent_keeps hc' hr' e⟩
  · next hskip =>
    have hne : (u.skip - 1#16).toNat ≠ 0 := fun h0 => hskip (BitVec.eq_of_toNat_eq h0)
    refine ⟨hc', hr', ?_⟩
    show 1 ≤ (u.skip - 1#16).toNat ∧ (u.skip - 1#16).toNat ≤ 2 * u.sps.toNat
    bv_omega

/-! ### Configuration, and work on a slot -/

theorem within_fZERO {b : F32} (hb : 0 ≤ valueOf b) : Within b fZERO :=
  ⟨by decide, by rw [valueOf_fneg, valueOf_fZERO]; linarith, valueOf_fZERO ▸ hb⟩

/-- `PSK.CFG` starts the loop in range (42_psk.md R191, R192). -/
theorem loopOk_pskInit {elOffset : Nat} {sps : BitVec 8} {alpha beta fmax gainmu gainomega : F32} (ted : Bool)
    (h : (legalSps elOffset sps && legalGain alpha && legalGain beta && legalFmax fmax && legalGain gainmu &&
      legalGain gainomega) = true) : LoopOk (pskInit sps ted alpha beta fmax gainmu gainomega) := by
  simp only [Bool.and_eq_true] at h
  obtain ⟨⟨⟨⟨⟨hsps, halpha⟩, hbeta⟩, hfmax⟩, hmu⟩, homega⟩ := h
  obtain ⟨hlow, hhigh, -⟩ := (legalSps_iff _ _).mp hsps
  have hc : PskConfigured (pskInit sps ted alpha beta fmax gainmu gainomega) :=
    ⟨hlow, hhigh, halpha, hbeta, hfmax, hmu, homega, rfl, rfl, by simp [pskInit]⟩
  have hb := bounds_of_configured hc
  have hskip : (pskInit sps ted alpha beta fmax gainmu gainomega).skip.toNat = 2 * sps.toNat := by
    simp only [pskInit, BitVec.toNat_ofNat]
    omega
  refine (loopOk_iff _).mpr fun _ => ⟨hc, ⟨?_, ?_, ?_, ?_, ?_, ?_⟩, ?_⟩
  · exact within_fZERO (by linarith [valueOf_fPI_bounds.1])
  · exact within_fZERO (valueOf_fZERO ▸ hb.fmax.low)
  · exact ⟨(valueOf_i2f (by omega)).1, hb.omegaMin.high, hb.omegaMax.low⟩
  · exact (by decide : isFinite fZERO = true)
  · exact valueOf_fZERO.ge
  · exact valueOf_fZERO.trans_lt one_pos
  · rw [hskip]
    exact ⟨by omega, le_rfl⟩

/-- A loop that was never configured has nothing to keep. -/
theorem loopOk_reset : LoopOk Psk.reset := fun h => absurd h (by decide)

/-- The loop of a slot at work keeps its invariant. -/
def KeepsLoop {α : Type} (f : Work → α → Work) : Prop := ∀ w x, LoopOk w.sl.psk → LoopOk (f w x).sl.psk

theorem KeepsLoop.foldl {α : Type} {f : Work → α → Work} (hf : KeepsLoop f) :
    KeepsLoop fun w (xs : List α) => xs.foldl f w := by
  intro w xs h
  induction xs generalizing w with
  | nil => exact h
  | cons x xs ih => exact ih (f w x) (hf w x h)

theorem keepsLoop_pushOne (c : Config) : KeepsLoop (pushOne c) := by
  intro w x h
  rwa [pushOne_sl]

theorem keepsLoop_pskOne (c : Config) : KeepsLoop (pskOne c) := by
  intro w x h
  rw [pskOne_sl]
  exact loopOk_pskRun h c.elOffset x

theorem keepsLoop_route (c : Config) : KeepsLoop (route c) := by
  intro w b h
  unfold route
  split
  · exact (keepsLoop_pskOne c).foldl w b h
  · exact h

theorem keepsLoop_drainOne (c : Config) : KeepsLoop (drainOne c) := by
  intro w x h
  unfold drainOne
  simp only
  split
  · exact h
  · exact keepsLoop_route c _ _ h

theorem keepsLoop_drainBuffer (c : Config) : KeepsLoop (drainBuffer c) :=
  fun _ b h => (keepsLoop_drainOne c).foldl _ b h

theorem psk_feedSlot (qcap : Nat) (x : List C32) (sl : Slot) : (feedSlot qcap x sl).psk = sl.psk := by
  unfold feedSlot
  split
  · split <;> rfl
  · rfl

theorem psk_reprogram (fc : Fc) (sl : Slot) : (reprogram fc sl).psk = sl.psk := by
  unfold reprogram
  split <;> rfl

/-! ### Every command -/

section
variable {s t : State}

theorem loopOk_slot (h : LoopsOk s) (k : Nat) : LoopOk (s.slot k).psk := by
  rcases slot_mem_or_reset s k with hmem | heq
  · exact h _ hmem
  · rw [heq]
    exact loopOk_reset

/-- One slot is written. -/
theorem loopsOk_of_set (h : LoopsOk s) {k : Nat} {sl : Slot} (ht : t.slots = s.slots.set k sl) (hsl : LoopOk sl.psk) :
    LoopsOk t := by
  intro sl' hmem
  rw [ht] at hmem
  rcases List.mem_or_eq_of_mem_set hmem with hmem | rfl
  · exact h sl' hmem
  · exact hsl

/-- Every slot is written, and no loop. -/
theorem loopsOk_of_map (h : LoopsOk s) {f : Slot → Slot} (ht : t.slots = s.slots.map f)
    (hf : ∀ sl, (f sl).psk = sl.psk) : LoopsOk t := by
  intro sl' hmem
  rw [ht] at hmem
  obtain ⟨sl, hsl, rfl⟩ := List.mem_map.mp hmem
  rw [hf]
  exact h sl hsl

theorem loopsOk_freqCommit (h : LoopsOk s) (f u : Int) : LoopsOk (s.freqCommit f u) :=
  loopsOk_of_map h rfl (psk_reprogram _)

theorem loopsOk_release (h : LoopsOk s) (k : Nat) : LoopsOk (s.release k) :=
  loopsOk_of_set h rfl (loopOk_slot h k)

/-- A new source has no loop yet (44_alloc.md R284). -/
theorem loopsOk_grant (h : LoopsOk s) (r : BitVec 16) (freq : BitVec 64) (bw pass stop : Word) (g : Grant) :
    LoopsOk (s.grant r freq bw pass stop g) := by
  unfold State.grant
  split
  · exact loopsOk_of_set h rfl loopOk_reset
  · exact loopsOk_freqCommit (loopsOk_of_set h rfl loopOk_reset) _ _

theorem loopsOk_store (h : LoopsOk s) {α : Type} {f : Work → α → Work} (hf : KeepsLoop f) (k : Nat) (x : α) :
    LoopsOk (s.store k (f (workOn (s.slot k)) x)) :=
  loopsOk_of_set h rfl (hf _ _ (loopOk_slot h k))

/-- A command runs a loop, restarts one, moves the slots without touching a loop, or leaves the slots. -/
theorem loopsOk_of_done {i : Instr} (h : LoopsOk s) (hd : Done i s t) : LoopsOk t := by
  cases i
  case sysReset =>
    obtain rfl := hd
    intro sl hmem
    rw [List.eq_of_mem_replicate hmem]
    exact loopOk_reset
  case fcSetfreq f =>
    obtain ⟨-, -, u, -, rfl⟩ := hd
    exact loopsOk_freqCommit h _ _
  case fcSetppm ppm =>
    obtain ⟨-, ⟨-, rfl⟩ | ⟨-, u, -, rfl⟩⟩ := hd
    · exact h
    · exact loopsOk_freqCommit (s := { s with fc := _ }) h _ u
  case allocGetsource r freq bw pass stop =>
    obtain ⟨g, -, rfl⟩ := hd
    exact loopsOk_grant h r freq bw pass stop g
  case allocRelease freq =>
    obtain ⟨-, rfl⟩ | ⟨e, -, -, rfl⟩ := hd
    · exact h
    · exact loopsOk_release h _
  case srcFeed x =>
    obtain ⟨-, -, rfl⟩ := hd
    exact loopsOk_of_map h rfl (psk_feedSlot _ x)
  case fcSetbounds min max =>
    obtain ⟨-, -, -, -, -, rfl⟩ := hd
    exact h
  case fcSetusable num den =>
    obtain ⟨-, -, -, rfl⟩ := hd
    exact h
  case fcSetrate rate =>
    obtain ⟨-, -, rfl⟩ := hd
    exact h
  case fcSetblackout | fcListen =>
    obtain ⟨-, rfl⟩ := hd
    exact h
  case sysNop | sysStatus | sysInfo | fcGetfreq | fcGetrate | fcGetstate | allocQuery =>
    obtain rfl := hd
    exact h
  case pskCfg k sps ted alpha beta fmax gainmu gainomega =>
    obtain ⟨-, -, hlegal, rfl⟩ := hd
    exact loopsOk_of_set h rfl (loopOk_pskInit ted hlegal)
  case pskStep k x =>
    obtain ⟨-, -, rfl⟩ := hd
    exact loopsOk_store h (keepsLoop_pskOne s.cfg) k.toNat x
  case pskStepblk k xs =>
    obtain ⟨-, -, w, rfl, rfl⟩ := hd
    exact loopsOk_store h (keepsLoop_pskOne s.cfg).foldl k.toNat xs
  case srcDrain k =>
    obtain ⟨-, -, w, rfl, rfl⟩ := hd
    exact loopsOk_store h (keepsLoop_drainBuffer s.cfg).foldl k.toNat _
  case cicPush k x =>
    obtain ⟨-, -, w, rfl, rfl⟩ := hd
    exact loopsOk_store h (keepsLoop_pushOne s.cfg) k.toNat x
  case cicPushblk k xs =>
    obtain ⟨-, -, w, rfl, rfl⟩ := hd
    exact loopsOk_store h (keepsLoop_pushOne s.cfg).foldl k.toNat xs
  case srcStop k =>
    obtain ⟨-, -, rfl⟩ := hd
    exact loopsOk_release h _
  case cicCfg k r rate pass stop =>
    obtain ⟨-, -, p, -, rfl⟩ := hd
    exact loopsOk_of_set h rfl (loopOk_slot h k.toNat)
  case mixSetfreq k f rate =>
    obtain ⟨-, -, -, rfl⟩ := hd
    exact loopsOk_of_set h rfl (loopOk_slot h k.toNat)
  case srcStart k | srcSetcorr k _ | mixNext k | mixStep k _ =>
    obtain ⟨-, -, rfl⟩ := hd
    exact loopsOk_of_set h rfl (loopOk_slot h k.toNat)
  case srcStatus k | srcAttach k _ _ =>
    obtain ⟨-, rfl⟩ := hd
    exact loopsOk_of_set h rfl (loopOk_slot h k.toNat)
  case mixGetstate | cicGetcfg | pskGetstate =>
    obtain ⟨-, rfl⟩ := hd
    exact h

theorem loopsOk_of_exec {i : Instr} (h : LoopsOk s) (hx : exec i s = .next t) : LoopsOk t := by
  rcases exec_cases hx with ⟨e, -, rfl⟩ | hd
  · exact h
  · exact loopsOk_of_done h hd

end

/-- Settles O58: a step waits, rejects a header, or executes a command, and each keeps every loop's invariant. -/
theorem stepKeepsLoopInvariant : Obligations.StepKeepsLoopInvariant := by
  intro s t h hstep
  unfold step at hstep
  split at hstep
  · cases hstep
    exact h
  · cases hstep
  · cases hstep
    exact h
  · next i rest _ => exact loopsOk_of_exec (s := s.consume rest) h hstep

end Sys2Proof.Proofs.LoopInvariant
end

section
/-! PROOF. The consumer and the tap of a slot alter no register (42_psk.md R226).

A state is compared with the same state without its observers. A command makes the same tests in both, and what it
writes differs in the observer bits, the ports and the responses only. -/

namespace Sys2Proof.Proofs.Observers

open Sys2Proof.Machine

/-! ### The registers behind the observers -/

@[simp] theorem slot_withoutObservers_twice (sl : Slot) : sl.withoutObservers.withoutObservers = sl.withoutObservers :=
  rfl

@[simp] theorem live_withoutObservers (sl : Slot) : sl.withoutObservers.live = sl.live := rfl

@[simp] theorem cfg_withoutObservers (s : State) : s.withoutObservers.cfg = s.cfg := rfl

@[simp] theorem fc_withoutObservers (s : State) : s.withoutObservers.fc = s.fc := rfl

@[simp] theorem active_withoutObservers (s : State) : s.withoutObservers.active = s.active := rfl

@[simp] theorem slots_withoutObservers (s : State) :
    s.withoutObservers.slots = s.slots.map Slot.withoutObservers := rfl

@[simp] theorem slot_withoutObservers (s : State) (k : Nat) :
    s.withoutObservers.slot k = (s.slot k).withoutObservers := by
  simp only [State.slot, slots_withoutObservers, List.getD, List.getElem?_map]
  cases s.slots[k]? <;> rfl

/-- Two states have the same registers, observer bits apart, when the fields that are registers agree. -/
theorem withoutObservers_eq {s t : State}
    (hslots : s.slots.map Slot.withoutObservers = t.slots.map Slot.withoutObservers) (hcfg : s.cfg = t.cfg := by rfl)
    (hfc : s.fc = t.fc := by rfl) (hactive : s.active = t.active := by rfl) (hcache : s.cache = t.cache := by rfl)
    (herr : s.err = t.err := by rfl) (hcmd : s.cmd = t.cmd := by rfl) :
    s.withoutObservers = t.withoutObservers := by
  simp [State.withoutObservers, hslots, hcfg, hfc, hactive, hcache, herr, hcmd]

theorem map_withoutObservers_twice (sls : List Slot) :
    (sls.map Slot.withoutObservers).map Slot.withoutObservers = sls.map Slot.withoutObservers := by simp

/-- Two branches on one test agree when they agree on each side of it. -/
theorem branches_agree {α β : Type} {f : α → β} {c : Prop} [Decidable c] {a b a' b' : α} (ht : f a = f a')
    (he : f b = f b') : f (if c then a else b) = f (if c then a' else b') := by
  split
  · exact ht
  · exact he

/-! ### Slot updates that do not read the observers -/

/-- The update gives the same registers with and without the observers of the slot it is given. -/
def Blind (f : Slot → Slot) : Prop := ∀ sl, (f sl).withoutObservers = (f sl.withoutObservers).withoutObservers

theorem map_blind {f : Slot → Slot} (hf : Blind f) (sls : List Slot) :
    (sls.map f).map Slot.withoutObservers = ((sls.map Slot.withoutObservers).map f).map Slot.withoutObservers := by
  simp only [List.map_map]
  exact List.map_congr_left fun sl _ => hf sl

theorem blind_reprogram (fc : Fc) : Blind (reprogram fc) := fun _ => branches_agree rfl rfl

theorem blind_feedSlot (qcap : Nat) (x : List C32) : Blind (feedSlot qcap x) :=
  fun _ => branches_agree (branches_agree rfl rfl) rfl

/-! ### Work on a slot -/

/-- A sample's work leaves the same registers in two slots that differ in their observers only; what the two runs emit
may differ. -/
def BlindWork {α : Type} (f : Work → α → Work) : Prop :=
  ∀ (w v : Work) (x : α), w.sl.withoutObservers = v.sl.withoutObservers →
    (f w x).sl.withoutObservers = (f v x).sl.withoutObservers

theorem BlindWork.foldl {α : Type} {f : Work → α → Work} (hf : BlindWork f) :
    BlindWork fun w (xs : List α) => xs.foldl f w := by
  intro w v xs h
  induction xs generalizing w v with
  | nil => exact h
  | cons x xs ih => exact ih _ _ (hf w v x h)

theorem blindWork_pushOne (c : Config) : BlindWork (pushOne c) := by
  have hsl (w : Work) (x : C32) : (pushOne c w x).sl.withoutObservers =
      { w.sl.withoutObservers with cic := (cicRun c w.sl.withoutObservers.cic x).cic } := by
    rw [pushOne_sl]
    rfl
  intro w v x h
  rw [hsl, hsl, h]

theorem blindWork_pskOne (c : Config) : BlindWork (pskOne c) := by
  have hsl (w : Work) (x : C32) : (pskOne c w x).sl.withoutObservers =
      { w.sl.withoutObservers with psk := (pskRun c.elOffset w.sl.withoutObservers.psk x).1 } := by
    rw [pskOne_sl]
    rfl
  intro w v x h
  rw [hsl, hsl, h]

theorem blindWork_route (c : Config) : BlindWork (route c) := by
  intro w v b h
  have hpsk : w.sl.psk = v.sl.psk := (congrArg Slot.psk h :)
  unfold route
  rw [hpsk]
  split
  · exact (blindWork_pskOne c).foldl w v b h
  · exact h

theorem blindWork_drainOne (c : Config) : BlindWork (drainOne c) := by
  intro w v x h
  have hmix : w.sl.mix = v.sl.mix := (congrArg Slot.mix h :)
  have hcic : w.sl.cic = v.sl.cic := (congrArg Slot.cic h :)
  have hslot (mix : Mix) (cic : Cic) : ({ w.sl with mix := mix, cic := cic } : Slot).withoutObservers =
      ({ v.sl with mix := mix, cic := cic } : Slot).withoutObservers :=
    congrArg (fun sl : Slot => { sl with mix := mix, cic := cic }) h
  unfold drainOne
  simp only [hmix, hcic]
  split
  · exact hslot _ _
  · exact blindWork_route c _ _ _ (hslot _ _)

theorem blindWork_drainBuffer (c : Config) : BlindWork (drainBuffer c) := by
  intro w v b h
  refine (blindWork_drainOne c).foldl _ _ b ?_
  exact congrArg (fun sl : Slot => { sl with src := { sl.src with q := dequeue sl.src.q } }) h

/-! ### What a command answers, without the observers -/

/-- The outcome of a command on the registers behind the observers. -/
def erased : Result → Result
  | .next s => .next s.withoutObservers
  | r => r

section
variable {s t : State} {header : Word} {k : BitVec 8}

theorem erased_fail (header : Word) (e : Status) (s : State) :
    erased (fail header e s) = erased (fail header e s.withoutObservers) :=
  congrArg Host.Outcome.next (withoutObservers_eq (map_withoutObservers_twice s.slots).symm)

theorem erased_succeed {rs rs' : List Word} (h : s.withoutObservers = t.withoutObservers) :
    erased (succeed rs s) = erased (succeed rs' t) :=
  congrArg (fun u : State => Host.Outcome.next u) h

variable {body body' : Slot → Result} (h : ∀ sl, erased (body sl) = erased (body' sl.withoutObservers))
include h

theorem erased_withSlot : erased (withSlot header k s body) = erased (withSlot header k s.withoutObservers body') := by
  refine branches_agree (erased_fail header .slot s) ?_
  rw [slot_withoutObservers]
  exact h _

theorem erased_withStandalone :
    erased (withStandalone header k s body) = erased (withStandalone header k s.withoutObservers body') :=
  erased_withSlot fun sl => branches_agree (erased_fail header .state s) (h sl)

theorem erased_withSource {p : SrcState → Bool} :
    erased (withSource header k s p body) = erased (withSource header k s.withoutObservers p body') :=
  erased_withSlot fun sl =>
    branches_agree (erased_fail header .stopped s) (branches_agree (h sl) (erased_fail header .state s))

end

/-! ### Writing slots -/

section
variable {s t : State} {k : Nat}

theorem set_agrees {sl sl' : Slot} (h : sl.withoutObservers = sl'.withoutObservers) (s : State) (k : Nat) :
    (s.slots.set k sl).map Slot.withoutObservers =
      (s.withoutObservers.slots.set k sl').map Slot.withoutObservers := by
  rw [List.map_set, List.map_set, slots_withoutObservers, map_withoutObservers_twice, h]

theorem erased_setSlot {sl sl' : Slot} (rs rs' : List Word) (h : sl.withoutObservers = sl'.withoutObservers) :
    erased (succeed rs (s.setSlot k sl)) = erased (succeed rs' (s.withoutObservers.setSlot k sl')) :=
  erased_succeed (withoutObservers_eq (set_agrees h s k))

theorem erased_store {w v : Work} (rs rs' : List Word) (h : w.sl.withoutObservers = v.sl.withoutObservers) :
    erased (succeed rs (s.store k w)) = erased (succeed rs' (s.withoutObservers.store k v)) :=
  erased_succeed (withoutObservers_eq (set_agrees h s k))

theorem erased_unchanged (rs rs' : List Word) : erased (succeed rs s) = erased (succeed rs' s.withoutObservers) :=
  erased_succeed (withoutObservers_eq (map_withoutObservers_twice s.slots).symm)

theorem erased_release (rs : List Word) (s : State) (k : Nat) :
    erased (succeed rs (s.release k)) = erased (succeed rs (s.withoutObservers.release k)) := by
  refine erased_succeed (withoutObservers_eq (set_agrees ?_ s k))
  rw [slot_withoutObservers]
  rfl

/-- The locked setter re-programs every live source, whatever observes it (43_fc.md R248). -/
theorem freqCommit_agrees (h : s.withoutObservers = t.withoutObservers) (f u : Int) :
    (s.freqCommit f u).withoutObservers = (t.freqCommit f u).withoutObservers := by
  have hslots : s.slots.map Slot.withoutObservers = t.slots.map Slot.withoutObservers := (congrArg State.slots h :)
  have hfc : s.fc = t.fc := (congrArg State.fc h :)
  refine withoutObservers_eq ?_ (congrArg State.cfg h :) ?_ (congrArg State.active h :) (congrArg State.cache h :)
    (congrArg State.err h :) (congrArg State.cmd h :)
  · rw [State.freqCommit_slots, State.freqCommit_slots, map_blind (blind_reprogram _), hslots, hfc,
      ← map_blind (blind_reprogram _)]
  · rw [State.freqCommit_fc, State.freqCommit_fc, hfc]

theorem erased_freqCommit (h : s.withoutObservers = t.withoutObservers) (f u : Int) (rs : List Word) :
    erased (succeed rs (s.freqCommit f u)) = erased (succeed rs (t.freqCommit f u)) :=
  erased_succeed (freqCommit_agrees h f u)

end

/-! ### The checks read no observer -/

theorem freqCheck_withoutObservers (s : State) (f ppm : Int) :
    freqCheck s.withoutObservers f ppm = freqCheck s f ppm := rfl

theorem cicConstruct_withoutObservers (s : State) (rate : Word) (r : BitVec 16) (pass stop : Word) :
    cicConstruct s.withoutObservers rate r pass stop = cicConstruct s rate r pass stop := rfl

theorem freeSlot_withoutObservers (s : State) : freeSlot s.withoutObservers = freeSlot s := by
  simp [freeSlot]

theorem allocate_withoutObservers (s : State) (r : BitVec 16) (freq : BitVec 64) (bw pass stop : Word) :
    allocate s.withoutObservers r freq bw pass stop = allocate s r freq bw pass stop := by
  unfold allocate
  rw [freeSlot_withoutObservers]
  rfl

section
open TunerAndAllocator
variable (s : State) (r : BitVec 16) (freq : BitVec 64) (bw pass stop : Word) (g : Grant)

theorem claimed_agrees :
    (claimed s r freq bw pass stop g).withoutObservers =
      (claimed s.withoutObservers r freq bw pass stop g).withoutObservers :=
  withoutObservers_eq (set_agrees rfl s g.slot)

theorem grant_agrees :
    (s.grant r freq bw pass stop g).withoutObservers =
      (s.withoutObservers.grant r freq bw pass stop g).withoutObservers := by
  cases htuned : g.tuned with
  | none =>
    rw [grant_of_no_retune htuned, grant_of_no_retune htuned]
    exact claimed_agrees s r freq bw pass stop g
  | some u =>
    rw [grant_of_retune htuned, grant_of_retune htuned]
    exact freqCommit_agrees (claimed_agrees s r freq bw pass stop g) _ _

end

/-! ### Every command -/

/-- SYS, FC, ALLOC and the feed. -/
theorem erased_exec_control {i : Instr} (hi : slotField i = none) (s : State) :
    erased (exec i s) = erased (exec i s.withoutObservers) := by
  have hsame : s.slots.map Slot.withoutObservers = s.withoutObservers.slots.map Slot.withoutObservers :=
    (map_withoutObservers_twice s.slots).symm
  cases i <;> simp only [slotField, reduceCtorEq] at hi <;> simp only [exec]
  case sysReset => rfl
  case sysStatus => exact erased_succeed (withoutObservers_eq hsame)
  case sysNop | sysInfo | fcGetfreq | fcGetrate | fcGetstate | allocQuery => exact erased_unchanged _ _
  case fcSetblackout | fcListen =>
    exact branches_agree (erased_fail _ _ s) (erased_succeed (withoutObservers_eq hsame))
  case fcSetrate | fcSetusable =>
    refine branches_agree (erased_fail _ _ s) (branches_agree (erased_fail _ _ s) ?_)
    exact erased_succeed (withoutObservers_eq hsame)
  case fcSetbounds min max =>
    refine branches_agree (erased_fail _ _ s) (branches_agree (erased_fail _ _ s) ?_)
    exact branches_agree (erased_fail _ _ s) (erased_succeed (withoutObservers_eq hsame))
  case fcSetfreq f =>
    refine branches_agree (erased_fail _ _ s) (branches_agree (erased_fail _ _ s) ?_)
    rw [freqCheck_withoutObservers, fc_withoutObservers]
    split
    · exact erased_fail _ _ s
    · exact erased_freqCommit (withoutObservers_eq hsame) _ _ _
  case fcSetppm ppm =>
    refine branches_agree (erased_fail _ _ s) (branches_agree ?_ (erased_succeed (withoutObservers_eq hsame)))
    rw [freqCheck_withoutObservers, fc_withoutObservers]
    split
    · exact erased_fail _ _ s
    · refine erased_freqCommit ?_ _ _ _
      exact withoutObservers_eq hsame
  case allocGetsource r freq bw pass stop =>
    unfold execAllocGetsource
    rw [allocate_withoutObservers]
    split
    · exact erased_fail _ _ s
    · exact erased_succeed (grant_agrees s r freq bw pass stop _)
  case allocRelease freq =>
    unfold execAllocRelease
    rw [active_withoutObservers]
    split
    · exact erased_unchanged _ _
    · exact erased_release _ s _
  case srcFeed x =>
    refine branches_agree (erased_fail _ _ s) ?_
    exact erased_succeed (withoutObservers_eq (map_blind (blind_feedSlot s.cfg.qcap x) s.slots))

/-- Commands on a slot. -/
theorem erased_exec_slot {i : Instr} (hi : slotField i ≠ none) (s : State) :
    erased (exec i s) = erased (exec i s.withoutObservers) := by
  cases i <;> simp only [slotField, ne_eq, not_true_eq_false, reduceCtorEq] at hi <;> simp only [exec]
  case srcStart | srcSetcorr =>
    refine erased_withSource fun sl => ?_
    exact erased_setSlot _ _ rfl
  case srcStop k =>
    refine erased_withSource fun _ => ?_
    exact erased_release _ s k.toNat
  case srcDrain k =>
    refine erased_withSource fun sl => erased_store _ _ ?_
    exact (blindWork_drainBuffer s.cfg).foldl _ _ _ rfl
  case srcStatus | srcAttach =>
    refine erased_withSlot fun sl => ?_
    exact erased_setSlot _ _ rfl
  case mixSetfreq | mixNext | mixStep =>
    refine erased_withStandalone fun sl => ?_
    exact branches_agree (erased_fail _ _ s) (erased_setSlot _ _ rfl)
  case mixGetstate | cicGetcfg | pskGetstate =>
    refine erased_withSlot fun sl => ?_
    exact erased_unchanged _ _
  case cicCfg k r rate pass stop =>
    refine erased_withStandalone fun sl => ?_
    refine branches_agree (erased_fail _ _ s) ?_
    rw [cicConstruct_withoutObservers]
    split
    · exact erased_fail _ _ s
    · refine erased_succeed (withoutObservers_eq (set_agrees ?_ s k.toNat))
      rfl
  case cicPush k x =>
    refine erased_withStandalone fun sl => ?_
    refine branches_agree (erased_fail _ _ s) (erased_store _ _ ?_)
    exact blindWork_pushOne s.cfg _ _ x rfl
  case cicPushblk k xs =>
    refine erased_withStandalone fun sl => ?_
    refine branches_agree (erased_fail _ _ s) (erased_store _ _ ?_)
    exact (blindWork_pushOne s.cfg).foldl _ _ xs rfl
  case pskCfg =>
    refine erased_withSlot fun sl => ?_
    refine branches_agree (erased_fail _ _ s) ?_
    exact branches_agree (erased_setSlot _ _ rfl) (erased_fail _ _ s)
  case pskStep k x =>
    refine erased_withStandalone fun sl => ?_
    refine branches_agree (erased_fail _ _ s) (erased_store _ _ ?_)
    exact blindWork_pskOne s.cfg _ _ x rfl
  case pskStepblk k xs =>
    refine erased_withStandalone fun sl => ?_
    refine branches_agree (erased_fail _ _ s) (erased_store _ _ ?_)
    exact (blindWork_pskOne s.cfg).foldl _ _ xs rfl

theorem erased_exec (i : Instr) (s : State) : erased (exec i s) = erased (exec i s.withoutObservers) := by
  by_cases hi : slotField i = none
  · exact erased_exec_control hi s
  · exact erased_exec_slot hi s

/-! ### Sequences of commands -/

/-- The next state of an outcome, or `s` where the machine stops. -/
def nextOr (s : State) : Result → State
  | .next t => t
  | _ => s

theorem withoutObservers_after (i : Instr) (s : State) :
    (after i s).withoutObservers = nextOr s.withoutObservers (erased (exec i s)) := by
  unfold after
  cases exec i s <;> rfl

/-- A command does to the registers behind the observers what it does to a state without observers. -/
theorem after_withoutObservers (i : Instr) (s : State) :
    (after i s).withoutObservers = (after i s.withoutObservers).withoutObservers := by
  have htwice : s.withoutObservers.withoutObservers = s.withoutObservers :=
    withoutObservers_eq (map_withoutObservers_twice s.slots)
  rw [withoutObservers_after, withoutObservers_after, erased_exec, htwice]

/-- Settles O49, by induction on the commands: both runs agree with the run from the state without observers. -/
theorem observersDoNotAlterTheRegisters : Obligations.ObserversDoNotAlterTheRegisters := by
  intro is
  induction is with
  | nil => exact fun _ _ h => h
  | cons i is ih =>
    intro s t h
    refine ih (after i s) (after i t) ?_
    rw [after_withoutObservers i s, h, ← after_withoutObservers i t]

end Sys2Proof.Proofs.Observers
end

section
/-! PROOF. The getters and the plain setters of the frequency controller (43_fc.md R241, R244, R249 to R253).

The getters answer registers and write none. A plain setter makes its tests in order, lock first (`FC.LISTEN` has no
lock test), and then stores its operands; its equations below are one a test, each under the tests passed before it. -/

namespace Sys2Proof.Proofs.TunerRegisters

open Sys2Proof.Machine

/-! ### Packed words and the empty answer -/

/-- `FC.GETSTATE` packs the two flags of the controller in bits 0 and 1 (43_fc.md R252). -/
theorem fcFlags_eq (fc : Fc) :
    fcFlags fc = BitVec.ofNat 32 ((if fc.locked then 1 else 0) + (if fc.freqValid then 2 else 0)) := by
  unfold fcFlags
  cases fc.locked <;> cases fc.freqValid <;> rfl

/-- The listener mask of `FC.LISTEN` stands in the IMM field of its header. -/
theorem header_fcListen (mask : BitVec 16) :
    (Instr.fcListen mask).header = 0x19000000#32 ||| mask.setWidth 32 :=
  headerWord_eq_or 0x19 0 mask

/-- A plain setter answers no words. -/
theorem succeed_nil (s : State) : succeed [] s = .next (s.answering []) := succeed_eq (by simp) s

/-! ### Getters -/

theorem exec_fcGetfreq (s : State) : exec .fcGetfreq s = .next (s.answering (words64 s.fc.freq)) :=
  succeed_eq (by simp [words64]) s

theorem exec_fcGetrate (s : State) : exec .fcGetrate s = .next (s.answering [s.fc.rate]) :=
  succeed_eq (by simp) s

theorem exec_fcGetstate (s : State) :
    exec .fcGetstate s = .next (s.answering
      ([fcFlags s.fc] ++ words64 s.fc.tuned ++ [s.fc.ppm] ++ words64 s.fc.min ++ words64 s.fc.max ++
        [s.fc.blackout, s.fc.ufNum, s.fc.ufDen, s.fc.listenMask.setWidth 32])) :=
  succeed_eq (by simp [words64]) s

/-- Settles O15: each getter succeeds on the state as it is, and its words are the registers read. -/
theorem fcGettersReadRegisters : Obligations.FcGettersReadRegisters := by
  intro s
  refine ⟨⟨rfl, rfl, rfl⟩, exec_fcGetfreq s, exec_fcGetrate s, ?_⟩
  rw [exec_fcGetstate, fcFlags_eq, ← BitVec.ofNat_toNat]
  rfl

/-! ### FC.SETBOUNDS (43_fc.md R249) -/

section
variable {s : State} {min max : BitVec 64}

theorem exec_fcSetbounds_of_locked (hlock : s.fc.locked = true) :
    exec (.fcSetbounds min max) s = .next (s.raise 0x15000000#32 .locked) :=
  if_pos hlock

theorem exec_fcSetbounds_of_illegal (hlock : s.fc.locked = false)
    (hbad : min.toInt < 0 ∨ 2 ^ 62 - 1 < max.toInt ∨ max.toInt < min.toInt) :
    exec (.fcSetbounds min max) s = .next (s.raise 0x15000000#32 .operand) :=
  (if_neg (by simp [hlock])).trans (if_pos hbad)

variable (hlock : s.fc.locked = false) (hmin : 0 ≤ min.toInt) (hmax : max.toInt ≤ 2 ^ 62 - 1)
  (hle : min.toInt ≤ max.toInt)
include hlock hmin hmax hle

/-- Legal bounds reach the range test: an unlocked controller does not refuse them, nor does the operand test. -/
theorem exec_fcSetbounds_of_legal :
    exec (.fcSetbounds min max) s =
      if s.fc.freqValid ∧ (s.fc.tuned.toInt < min.toInt ∨ max.toInt < s.fc.tuned.toInt) then
        .next (s.raise 0x15000000#32 .range)
      else .next (({ s with fc := { s.fc with min := min, max := max } } : State).answering []) := by
  have hlegal : ¬(min.toInt < 0 ∨ freqLimit < max.toInt ∨ max.toInt < min.toInt) := by
    unfold freqLimit
    omega
  rw [← succeed_nil]
  exact (if_neg (by simp [hlock])).trans (if_neg hlegal)

theorem exec_fcSetbounds_of_tuned_outside (hvalid : s.fc.freqValid = true)
    (hout : s.fc.tuned.toInt < min.toInt ∨ max.toInt < s.fc.tuned.toInt) :
    exec (.fcSetbounds min max) s = .next (s.raise 0x15000000#32 .range) := by
  rw [exec_fcSetbounds_of_legal hlock hmin hmax hle, if_pos ⟨hvalid, hout⟩]

theorem exec_fcSetbounds_of_tuned_inside
    (hin : s.fc.freqValid = true → min.toInt ≤ s.fc.tuned.toInt ∧ s.fc.tuned.toInt ≤ max.toInt) :
    exec (.fcSetbounds min max) s =
      .next (({ s with fc := { s.fc with min := min, max := max } } : State).answering []) := by
  rw [exec_fcSetbounds_of_legal hlock hmin hmax hle, if_neg]
  rintro ⟨hvalid, hout⟩
  have := hin hvalid
  omega

end

/-! ### FC.SETBLACKOUT and FC.SETUSABLE (43_fc.md R250, R251) -/

section
variable {s : State} {bw num den : Word}

theorem exec_fcSetblackout_of_locked (hlock : s.fc.locked = true) :
    exec (.fcSetblackout bw) s = .next (s.raise 0x16000000#32 .locked) :=
  if_pos hlock

theorem exec_fcSetblackout_of_unlocked (hlock : s.fc.locked = false) :
    exec (.fcSetblackout bw) s =
      .next (({ s with fc := { s.fc with blackout := bw } } : State).answering []) := by
  rw [← succeed_nil]
  exact if_neg (by simp [hlock])

theorem exec_fcSetusable_of_locked (hlock : s.fc.locked = true) :
    exec (.fcSetusable num den) s = .next (s.raise 0x17000000#32 .locked) :=
  if_pos hlock

theorem exec_fcSetusable_of_illegal (hlock : s.fc.locked = false) (hbad : den = 0 ∨ den.toNat < num.toNat) :
    exec (.fcSetusable num den) s = .next (s.raise 0x17000000#32 .operand) :=
  (if_neg (by simp [hlock])).trans (if_pos hbad)

theorem exec_fcSetusable_of_legal (hlock : s.fc.locked = false) (hden : den ≠ 0) (hnum : num.toNat ≤ den.toNat) :
    exec (.fcSetusable num den) s =
      .next (({ s with fc := { s.fc with ufNum := num, ufDen := den } } : State).answering []) := by
  rw [← succeed_nil]
  exact (if_neg (by simp [hlock])).trans (if_neg (not_or.mpr ⟨hden, hnum.not_gt⟩))

end

/-! ### FC.LISTEN (43_fc.md R253) -/

section
variable {s : State} {mask : BitVec 16}

theorem exec_fcListen_of_unknown (hmask : 2 ^ s.cfg.nlisten ≤ mask.toNat) :
    exec (.fcListen mask) s = .next (s.raise (0x19000000#32 ||| mask.setWidth 32) .operand) := by
  rw [← header_fcListen]
  exact if_pos hmask

/-- The lock is not read: a legal mask is stored in both modes. -/
theorem exec_fcListen_of_known (hmask : mask.toNat < 2 ^ s.cfg.nlisten) :
    exec (.fcListen mask) s =
      .next (({ s with fc := { s.fc with listenMask := mask } } : State).answering []) := by
  rw [← succeed_nil]
  exact if_neg hmask.not_ge

end

/-- Settles O20: for each setter its record, its refusals in their order, and its store. -/
theorem fcPlainSettersStore : Obligations.FcPlainSettersStore := by
  refine ⟨fun min max s => ?_, fun bw s => ?_, fun num den s => ?_, fun mask s => ?_⟩
  · exact ⟨rfl, exec_fcSetbounds_of_locked, exec_fcSetbounds_of_illegal, exec_fcSetbounds_of_tuned_outside,
      exec_fcSetbounds_of_tuned_inside⟩
  · exact ⟨rfl, exec_fcSetblackout_of_locked, exec_fcSetblackout_of_unlocked⟩
  · exact ⟨rfl, exec_fcSetusable_of_locked, exec_fcSetusable_of_illegal, exec_fcSetusable_of_legal⟩
  · exact ⟨congrArg (· :: []) (header_fcListen mask), exec_fcListen_of_unknown, exec_fcListen_of_known⟩

end Sys2Proof.Proofs.TunerRegisters
end

section
/-! PROOF. `ALLOC.RELEASE` and `ALLOC.QUERY` (44_alloc.md R287, R289).

The release searches the active set by frequency; distinct keys make what it finds the released channel. -/

namespace Sys2Proof.Proofs.AllocReleaseAndQuery

open Sys2Proof.Machine

/-! ### ALLOC.RELEASE (R287) -/

/-- Frequencies are keys: a set that repeats none has one channel at each. -/
theorem find?_freq_eq_some {l : List Channel} {e : Channel} (hkeys : l.Pairwise fun a b => a.freq ≠ b.freq)
    (he : e ∈ l) : (l.find? fun c => c.freq = e.freq) = some e := by
  obtain ⟨d, hd⟩ : ∃ d, (l.find? fun c => c.freq = e.freq) = some d :=
    Option.isSome_iff_exists.mp (List.find?_isSome.mpr ⟨e, he, decide_eq_true rfl⟩)
  have hfreq : d.freq = e.freq := by simpa using List.find?_some hd
  have hde : d = e := List.inj_on_of_nodup_map (List.pairwise_map.mpr hkeys) (List.mem_of_find?_eq_some hd) he hfreq
  rw [hd, hde]

/-- What a release writes, as one slot written over the set and the lock. -/
theorem release_answering_eq_put (s : State) (k : BitVec 8) (rs : List Word) :
    (s.release k.toNat).answering rs =
      ({ s with
        active := s.active.filter fun c => c.slot ≠ k
        fc := { s.fc with locked := if (s.active.filter fun c => c.slot ≠ k) = [] then false else s.fc.locked } } :
        State).put k
        { s.slot k.toNat with src := { (s.slot k.toNat).src with state := .stopped, q := [] } } rs := by
  rw [release_eq, State.put]
  simp only [ne_eq, BitVec.toNat_inj, List.isEmpty_iff]

theorem exec_allocRelease_of_inactive {freq : BitVec 64} {s : State} (hfreq : ∀ c ∈ s.active, c.freq ≠ freq) :
    exec (.allocRelease freq) s = .next (s.answering [0#32]) := by
  have hnone : (s.active.find? fun c => c.freq = freq) = none := List.find?_eq_none.mpr (by simpa using hfreq)
  change execAllocRelease freq s = _
  rw [execAllocRelease, hnone]
  exact succeed_eq (by simp) s

theorem exec_allocRelease_of_active {s : State} {e : Channel}
    (hkeys : s.active.Pairwise fun a b => a.freq ≠ b.freq) (he : e ∈ s.active) :
    exec (.allocRelease e.freq) s = .next ((s.release e.slot.toNat).answering [1#32]) := by
  change execAllocRelease e.freq s = _
  rw [execAllocRelease, find?_freq_eq_some hkeys he]
  exact succeed_eq (by simp) _

/-! ### ALLOC.QUERY (R289) -/

/-- The index stands in the IMM field of the header. -/
theorem header_allocQuery (index : BitVec 16) :
    (Instr.allocQuery index).header = 0x22000000#32 ||| index.setWidth 32 :=
  headerWord_eq_or 0x22 0 index

theorem exec_allocQuery_of_entry {index : BitVec 16} {s : State} {c : Channel}
    (hc : s.active[index.toNat]? = some c) :
    exec (.allocQuery index) s =
      .next (s.answering (u32 s.active.length :: (words64 c.freq ++ [c.bw, c.slot.setWidth 32]))) := by
  change execAllocQuery index s = _
  rw [execAllocQuery, hc]
  exact succeed_eq (by simp [words64]) s

theorem exec_allocQuery_of_past_end {index : BitVec 16} {s : State} (hend : s.active.length ≤ index.toNat) :
    exec (.allocQuery index) s =
      .next (s.answering [u32 s.active.length, 0#32, 0#32, 0#32, 0#32]) := by
  change execAllocQuery index s = _
  rw [execAllocQuery, List.getElem?_eq_none hend]
  exact succeed_eq (by simp) s

/-- Settles O23: a release misses the set or finds the channel of its key; a query finds an entry or is past the end. -/
theorem allocReleaseAndQuery : Obligations.AllocReleaseAndQuery := by
  refine ⟨fun freq s => ⟨rfl, exec_allocRelease_of_inactive, ?active⟩, fun index s =>
    ⟨congrArg (· :: []) (header_allocQuery index), fun c hc => ?entry, exec_allocQuery_of_past_end⟩⟩
  case active =>
    rintro hkeys e he rfl
    rw [exec_allocRelease_of_active hkeys he, release_answering_eq_put]
  case entry =>
    rw [BitVec.ofNat_toNat]
    exact exec_allocQuery_of_entry hc

end Sys2Proof.Proofs.AllocReleaseAndQuery
end

section
/-! PROOF. Every step keeps the queues within their bounds and the device told of `FC.TUNED` (45_src.md R317, 43_fc.md
R257).

What a command can do to queues and device is one of four things (`Effect`): nothing but shorten queues, reset the core,
tune and tell the device, or feed a buffer. Each invariant is then a case analysis of four cases. -/

namespace Sys2Proof.Proofs.QueuesAndDevice

open Sys2Proof.Machine Sys2Proof.Proofs.TunerAndAllocator

/-! ### A queue within its bounds -/

/-- 45_src.md R317 for one queue: at most `QCAP` buffers, each of 1 to `BUF_MAX` samples. -/
def QueueOk (c : Config) (q : List (List C32)) : Prop :=
  q.length ≤ c.qcap ∧ ∀ b ∈ q, 1 ≤ b.length ∧ b.length ≤ c.bufMax

section
variable {c : Config} {q q' : List (List C32)} {b : List C32}

theorem queueOk_nil (c : Config) : QueueOk c [] := ⟨Nat.zero_le _, by simp⟩

theorem QueueOk.of_suffix (h : QueueOk c q) (hq : q' <:+ q) : QueueOk c q' :=
  ⟨hq.length_le.trans h.1, fun b hb => h.2 b (hq.mem hb)⟩

theorem QueueOk.enqueue (h : QueueOk c q) (hroom : q.length < c.qcap) (hpos : 1 ≤ b.length)
    (hmax : b.length ≤ c.bufMax) : QueueOk c (enqueue q b) := by
  refine ⟨by simpa [Machine.enqueue] using hroom, fun b' hb' => ?_⟩
  rcases List.mem_append.mp hb' with hold | hnew
  · exact h.2 b' hold
  · rw [List.mem_singleton.mp hnew]
    exact ⟨hpos, hmax⟩

/-- A full queue loses its oldest buffer before the new one comes (45_src.md R307), so a feed never overfills it. -/
theorem queueOk_feedSlot {sl : Slot} (h : QueueOk c sl.src.q) (hcap : 1 ≤ c.qcap) (hpos : 1 ≤ b.length)
    (hmax : b.length ≤ c.bufMax) : QueueOk c (feedSlot c.qcap b sl).src.q := by
  unfold feedSlot
  split
  · split
    · next hfull =>
      have hroom : (dequeue sl.src.q).length < c.qcap := by
        rw [dequeue, List.length_tail]
        omega
      exact (h.of_suffix (List.tail_suffix _)).enqueue hroom hpos hmax
    · next hroom => exact h.enqueue (lt_of_le_of_ne h.1 hroom) hpos hmax
  · exact h

end

/-- The bounds slot by slot; a place with no slot has an empty queue. -/
theorem queuesOk_iff (s : State) : QueuesOk s ↔ s.cfg.Legal ∧ ∀ k, QueueOk s.cfg (s.slot k).src.q := by
  refine and_congr_right fun _ => ⟨fun h k => ?_, fun h sl hsl => ?_⟩
  · rcases slot_mem_or_reset s k with hmem | hreset
    · exact h _ hmem
    · rw [hreset]
      exact queueOk_nil s.cfg
  · obtain ⟨k, hk⟩ := List.getElem?_of_mem hsl
    rw [← slot_eq_of_getElem? hk]
    exact h k

/-! ### The items the device is told -/

theorem tunedItems_append_setFreq (items : List DevItem) (t : BitVec 64) :
    tunedItems (items ++ [.setFreq t]) = tunedItems items ++ [t] := by
  simp [tunedItems]

theorem tunedItems_append_setRate (items : List DevItem) (rate : Word) :
    tunedItems (items ++ [.setRate rate]) = tunedItems items := by
  simp [tunedItems]

/-! ### What work on a slot does to its queue -/

theorem src_reprogram (fc : Fc) (sl : Slot) : (reprogram fc sl).src = sl.src := by
  unfold reprogram
  split <;> rfl

theorem queue_drainBuffer (c : Config) (w : Work) (b : List C32) :
    (drainBuffer c w b).sl.src.q = dequeue w.sl.src.q := by
  rw [drainBuffer, foldl_drainOne_src]

theorem queue_foldl_drainBuffer (c : Config) (w : Work) (bs : List (List C32)) :
    (bs.foldl (drainBuffer c) w).sl.src.q <:+ w.sl.src.q := by
  induction bs generalizing w with
  | nil => exact List.suffix_rfl
  | cons b bs ih =>
    refine (ih (drainBuffer c w b)).trans ?_
    rw [queue_drainBuffer]
    exact List.tail_suffix _

/-! ### Commands that tell the device nothing and enqueue nothing -/

/-- The controller keeps its frequency, the device is told none, and no queue gets a buffer. -/
structure Quiet (s t : State) : Prop where
  cfg : t.cfg = s.cfg
  freqValid : t.fc.freqValid = s.fc.freqValid
  tuned : t.fc.tuned = s.fc.tuned
  dev : tunedItems t.ports.dev = tunedItems s.ports.dev
  queue : ∀ k, (t.slot k).src.q <:+ (s.slot k).src.q

section
variable {s t : State}

theorem quiet_of_slots_eq (hcfg : t.cfg = s.cfg) (hvalid : t.fc.freqValid = s.fc.freqValid)
    (htuned : t.fc.tuned = s.fc.tuned) (hdev : tunedItems t.ports.dev = tunedItems s.ports.dev)
    (hslots : t.slots = s.slots) : Quiet s t :=
  ⟨hcfg, hvalid, htuned, hdev, fun k => by rw [State.slot, hslots, ← State.slot]⟩

theorem Quiet.refl (s : State) : Quiet s s := quiet_of_slots_eq rfl rfl rfl rfl rfl

theorem Quiet.answering (h : Quiet s t) (rs : List Word) : Quiet s (t.answering rs) :=
  ⟨h.cfg, h.freqValid, h.tuned, h.dev, h.queue⟩

theorem queue_setSlot {k : Nat} {sl : Slot} (h : sl.src.q <:+ (s.slot k).src.q) (j : Nat) :
    ((s.setSlot k sl).slot j).src.q <:+ (s.slot j).src.q := by
  rcases slot_setSlot_cases s j k sl with hother | ⟨rfl, hsame⟩
  · rw [hother]
  · rwa [hsame]

theorem quiet_put {k : BitVec 8} {sl : Slot} (h : sl.src.q <:+ (s.slot k.toNat).src.q) (rs : List Word) :
    Quiet s (s.put k sl rs) :=
  ⟨rfl, rfl, rfl, rfl, queue_setSlot h⟩

theorem quiet_store {k : Nat} {w : Work} (h : w.sl.src.q <:+ (s.slot k).src.q) : Quiet s (s.store k w) :=
  ⟨rfl, rfl, rfl, rfl, queue_setSlot h⟩

theorem quiet_store_of_src_eq {k : Nat} {w : Work} (h : w.sl.src = (s.slot k).src) : Quiet s (s.store k w) :=
  quiet_store (by rw [h])

/-- A release empties the queue of its slot (44_alloc.md R287). -/
theorem quiet_release (s : State) (k : Nat) : Quiet s (s.release k) :=
  ⟨rfl, rfl, rfl, rfl, queue_setSlot List.nil_suffix⟩

/-- A new source starts with an empty queue (44_alloc.md R284). -/
theorem quiet_claimed (s : State) (r : BitVec 16) (freq : BitVec 64) (bw pass stop : Word) (g : Grant) :
    Quiet s (claimed s r freq bw pass stop g) :=
  ⟨rfl, rfl, rfl, rfl, queue_setSlot (s := { s with active := _, fc := _, cache := _ }) List.nil_suffix⟩

theorem quiet_raise (s : State) (header : Word) (e : Status) : Quiet s (s.raise header e) :=
  quiet_of_slots_eq rfl rfl rfl rfl rfl

/-! ### What a command can do -/

/-- What a command can do to the queues and the device. A retune is the whole of `FC.SETFREQ`, and the end of
`FC.SETPPM` and `ALLOC.GETSOURCE`. -/
inductive Effect (s : State) : State → Prop where
  | quiet {t : State} (h : Quiet s t) : Effect s t
  | reset (rs : List Word) : Effect s (s.resetCore.answering rs)
  | retune {u : State} (h : Quiet s u) (f v : Int) (rs : List Word) : Effect s ((u.freqCommit f v).answering rs)
  | feed {x : List C32} (hpos : 1 ≤ x.length) (hmax : x.length ≤ s.cfg.bufMax) (ws : List (BitVec 8))
      (rs : List Word) :
      Effect s ((({ s with slots := s.slots.map (feedSlot s.cfg.qcap x) } : State).emitWarn ws).answering rs)

/-- A command on a slot dequeues at most. -/
theorem quiet_of_done_slot {i : Instr} (hi : slotField i ≠ none) (hd : Done i s t) : Quiet s t := by
  cases i <;> simp only [slotField, ne_eq, not_true_eq_false, reduceCtorEq] at hi
  case srcDrain k =>
    obtain ⟨-, -, w, rfl, rfl⟩ := hd
    exact (quiet_store (queue_foldl_drainBuffer s.cfg (workOn _) _)).answering _
  case srcStop k =>
    obtain ⟨-, -, rfl⟩ := hd
    exact (quiet_release s k.toNat).answering _
  case cicPush k x =>
    obtain ⟨-, -, w, rfl, rfl⟩ := hd
    exact (quiet_store_of_src_eq (by rw [pushOne_sl]; rfl)).answering _
  case cicPushblk k xs =>
    obtain ⟨-, -, w, rfl, rfl⟩ := hd
    exact (quiet_store_of_src_eq (by rw [foldl_pushOne_sl]; rfl)).answering _
  case pskStep k x =>
    obtain ⟨-, -, rfl⟩ := hd
    exact (quiet_store_of_src_eq (by rw [pskOne_sl]; rfl)).answering _
  case pskStepblk k xs =>
    obtain ⟨-, -, w, rfl, rfl⟩ := hd
    exact (quiet_store_of_src_eq (by rw [foldl_pskOne_sl]; rfl)).answering _
  case cicCfg k r rate pass stop =>
    obtain ⟨-, -, p, -, rfl⟩ := hd
    exact ⟨rfl, rfl, rfl, rfl, queue_setSlot (s := { s with cache := _ }) List.suffix_rfl⟩
  case mixSetfreq | pskCfg =>
    obtain ⟨-, -, -, rfl⟩ := hd
    refine quiet_put ?_ _
    exact List.suffix_rfl
  case srcStart | srcSetcorr | mixNext | mixStep =>
    obtain ⟨-, -, rfl⟩ := hd
    refine quiet_put ?_ _
    exact List.suffix_rfl
  case srcStatus | srcAttach =>
    obtain ⟨-, rfl⟩ := hd
    refine quiet_put ?_ _
    exact List.suffix_rfl
  case mixGetstate | cicGetcfg | pskGetstate =>
    obtain ⟨-, rfl⟩ := hd
    exact (Quiet.refl s).answering _

/-- The commands without a SLOT field: SYS, FC, ALLOC and the feed. -/
theorem effect_of_done_control {i : Instr} (hi : slotField i = none) (hd : Done i s t) : Effect s t := by
  cases i <;> simp only [slotField, reduceCtorEq] at hi
  case sysReset =>
    obtain rfl := hd
    exact .reset _
  case fcSetfreq f =>
    obtain ⟨-, -, v, -, rfl⟩ := hd
    exact .retune (.refl s) _ _ _
  case fcSetppm ppm =>
    obtain ⟨-, ⟨-, rfl⟩ | ⟨-, v, -, rfl⟩⟩ := hd
    · exact .quiet (quiet_of_slots_eq rfl rfl rfl rfl rfl)
    · refine .retune ?_ _ v _
      exact quiet_of_slots_eq rfl rfl rfl rfl rfl
  case allocGetsource r freq bw pass stop =>
    obtain ⟨g, -, rfl⟩ := hd
    cases htuned : g.tuned with
    | none =>
      rw [grant_of_no_retune htuned]
      exact .quiet ((quiet_claimed s r freq bw pass stop g).answering _)
    | some v =>
      rw [grant_of_retune htuned]
      exact .retune (quiet_claimed s r freq bw pass stop g) _ _ _
  case allocRelease freq =>
    obtain ⟨-, rfl⟩ | ⟨e, -, -, rfl⟩ := hd
    · exact .quiet ((Quiet.refl s).answering _)
    · exact .quiet ((quiet_release s _).answering _)
  case srcFeed x =>
    obtain ⟨hpos, hmax, rfl⟩ := hd
    exact .feed hpos hmax _ _
  case fcSetrate rate =>
    obtain ⟨-, -, rfl⟩ := hd
    exact .quiet (quiet_of_slots_eq rfl rfl rfl (tunedItems_append_setRate _ _) rfl)
  case fcSetbounds min max =>
    obtain ⟨-, -, -, -, -, rfl⟩ := hd
    exact .quiet (quiet_of_slots_eq rfl rfl rfl rfl rfl)
  case fcSetusable num den =>
    obtain ⟨-, -, -, rfl⟩ := hd
    exact .quiet (quiet_of_slots_eq rfl rfl rfl rfl rfl)
  case fcSetblackout | fcListen =>
    obtain ⟨-, rfl⟩ := hd
    exact .quiet (quiet_of_slots_eq rfl rfl rfl rfl rfl)
  case sysNop | sysStatus | sysInfo | fcGetfreq | fcGetrate | fcGetstate | allocQuery =>
    obtain rfl := hd
    exact .quiet (quiet_of_slots_eq rfl rfl rfl rfl rfl)

theorem effect_of_exec {i : Instr} (hx : exec i s = .next t) : Effect s t := by
  rcases exec_cases hx with ⟨e, -, rfl⟩ | hd
  · exact .quiet (quiet_raise s _ e)
  by_cases hi : slotField i = none
  · exact effect_of_done_control hi hd
  · exact .quiet (quiet_of_done_slot hi hd)

/-! ### Both invariants along an effect -/

theorem queuesOk_of_quiet (h : QueuesOk s) (hq : Quiet s t) : QueuesOk t := by
  obtain ⟨hlegal, hqueue⟩ := (queuesOk_iff s).mp h
  rw [queuesOk_iff, hq.cfg]
  exact ⟨hlegal, fun k => (hqueue k).of_suffix (hq.queue k)⟩

theorem queuesOk_resetCore (h : QueuesOk s) : QueuesOk s.resetCore := by
  obtain ⟨hlegal, -⟩ := h
  refine (queuesOk_iff _).mpr ⟨hlegal, fun k => ?_⟩
  rw [slot_resetCore]
  exact queueOk_nil _

theorem queuesOk_freqCommit (h : QueuesOk s) (f v : Int) : QueuesOk (s.freqCommit f v) := by
  obtain ⟨hlegal, hqueue⟩ := (queuesOk_iff s).mp h
  refine (queuesOk_iff _).mpr ⟨hlegal, fun k => ?_⟩
  rw [slot_freqCommit, src_reprogram]
  exact hqueue k

theorem queuesOk_feed {x : List C32} (h : QueuesOk s) (hpos : 1 ≤ x.length) (hmax : x.length ≤ s.cfg.bufMax) :
    QueuesOk { s with slots := s.slots.map (feedSlot s.cfg.qcap x) } := by
  obtain ⟨hlegal, hqueue⟩ := (queuesOk_iff s).mp h
  obtain ⟨-, -, -, -, -, ⟨hcap, -⟩, -⟩ := id hlegal
  refine (queuesOk_iff _).mpr ⟨hlegal, fun k => ?_⟩
  rw [slot_map_slots s rfl]
  exact queueOk_feedSlot (hqueue k) hcap hpos hmax

theorem queuesOk_of_effect (h : QueuesOk s) (he : Effect s t) : QueuesOk t := by
  cases he with
  | quiet hq => exact queuesOk_of_quiet h hq
  | reset rs => exact queuesOk_resetCore (s := s) h
  | retune hq f v rs => exact queuesOk_freqCommit (queuesOk_of_quiet h hq) f v
  | feed hpos hmax ws rs => exact queuesOk_feed h hpos hmax

theorem deviceTold_of_quiet (h : DeviceTold s) (hq : Quiet s t) : DeviceTold t := by
  rwa [DeviceTold, hq.freqValid, hq.dev, hq.tuned]

/-- Tuning tells the device at once (43_fc.md R248), whatever it was told before. -/
theorem deviceTold_freqCommit (s : State) (f v : Int) : DeviceTold (s.freqCommit f v) := by
  intro _
  rw [freqCommit_eq, tunedItems_append_setFreq, List.getLast?_concat]

/-- No frequency is valid after a reset (70_reset_and_hazards.md R382). -/
theorem deviceTold_resetCore (s : State) : DeviceTold s.resetCore := fun hvalid => absurd hvalid Bool.false_ne_true

theorem deviceTold_of_effect (h : DeviceTold s) (he : Effect s t) : DeviceTold t := by
  cases he with
  | quiet hq => exact deviceTold_of_quiet h hq
  | reset rs => exact deviceTold_resetCore s
  | retune hq f v rs => exact deviceTold_freqCommit _ f v
  | feed hpos hmax ws rs => exact h

end

/-! ### The step -/

/-- A step waits, rejects a header, or executes a command, on the state without the words it consumed. -/
theorem effect_of_step {s t : State} (hstep : step s = .next t) : ∃ rest, Effect (s.consume rest) t := by
  unfold step at hstep
  split at hstep
  · cases hstep
    exact ⟨s.cmd, .quiet (.refl s)⟩
  · cases hstep
  · next header rest _ =>
    cases hstep
    exact ⟨rest, .quiet (quiet_raise (s.consume rest) header .illegal)⟩
  · next i rest _ => exact ⟨rest, effect_of_exec hstep⟩

/-- Settles O56: whatever the words it consumed, a step has one of four effects, and each keeps both invariants. -/
theorem stepKeepsQueuesBoundedAndDeviceTold : Obligations.StepKeepsQueuesBoundedAndDeviceTold := by
  constructor
  · intro s t h hstep
    obtain ⟨rest, he⟩ := effect_of_step hstep
    exact queuesOk_of_effect (s := s.consume rest) h he
  · intro s t h hstep
    obtain ⟨rest, he⟩ := effect_of_step hstep
    exact deviceTold_of_effect (s := s.consume rest) h he

end Sys2Proof.Proofs.QueuesAndDevice
end

section
/-! PROOF. `SRC.STATUS`, `SRC.ATTACH` and `SRC.SETCORR` (45_src.md R311 to R313).

Status and attach answer in every state of a slot that exists; setting the correction needs a live source. -/

namespace Sys2Proof.Proofs.SrcRegisters

open Sys2Proof.Machine

/-! ### Headers -/

/-- A header whose IMM field is zero. -/
theorem headerWord_imm_zero (op k : BitVec 8) : headerWord op k 0 = op.setWidth 32 <<< 24 ||| slotBits k :=
  (headerWord_eq_or op k 0).trans BitVec.or_zero

theorem header_srcStatus (k : BitVec 8) : (Instr.srcStatus k).header = 0x34000000#32 ||| slotBits k :=
  headerWord_imm_zero 0x34 k

theorem header_srcSetcorr (k : BitVec 8) (corr : Word) :
    (Instr.srcSetcorr k corr).header = 0x36000000#32 ||| slotBits k :=
  headerWord_imm_zero 0x36 k

theorem setWidth_attachImm (consumer tap : Bool) :
    (attachImm consumer tap).setWidth 32 = (if consumer then 1#32 else 0#32) ||| (if tap then 2#32 else 0#32) := by
  revert consumer tap
  decide

/-- The two observer bits stand in bits 0 and 1 of the IMM field. -/
theorem header_srcAttach (k : BitVec 8) (consumer tap : Bool) :
    (Instr.srcAttach k consumer tap).header =
      0x35000000#32 ||| slotBits k ||| (if consumer then 1#32 else 0#32) ||| (if tap then 2#32 else 0#32) := by
  rw [BitVec.or_assoc, ← setWidth_attachImm]
  exact headerWord_eq_or 0x35 k _

/-! ### The flags word (45_src.md R311) -/

theorem toNat_append_eq_add {n m : Nat} (x : BitVec n) (y : BitVec m) :
    (x ++ y).toNat = x.toNat * 2 ^ m + y.toNat := by
  rw [BitVec.toNat_append, ← Nat.shiftLeft_add_eq_or_of_lt y.isLt, Nat.shiftLeft_eq]

theorem toNat_srcStateCode (st : SrcState) :
    (srcStateCode st).toNat =
      if st = .idle then 1 else if st = .running then 2 else if st = .stopped then 3 else 0 := by
  cases st <;> rfl

/-- A flag at the bit of weight `n`. -/
theorem ite_eq_toNat_mul (b : Bool) (n : Nat) : (if b then n else 0) = b.toNat * n := by
  cases b <;> simp

/-- The flags word is the sum of its fields, each at its weight. -/
theorem toNat_slotFlags (sl : Slot) :
    (slotFlags sl).toNat = (srcStateCode sl.src.state).toNat + sl.src.ovf.toNat * 4 + sl.src.consumer.toNat * 8 +
      sl.src.tapen.toNat * 16 + sl.mix.cfgd.toNat * 32 + sl.cic.cfgd.toNat * 64 + sl.psk.cfgd.toNat * 128 := by
  simp only [slotFlags, toNat_append_eq_add, BitVec.toNat_ofBool, BitVec.toNat_ofNat]
  omega

theorem slotFlags_eq (sl : Slot) :
    slotFlags sl = BitVec.ofNat 32
      ((if sl.src.state = .idle then 1 else if sl.src.state = .running then 2
          else if sl.src.state = .stopped then 3 else 0) +
        (if sl.src.ovf then 4 else 0) + (if sl.src.consumer then 8 else 0) + (if sl.src.tapen then 16 else 0) +
        (if sl.mix.cfgd then 32 else 0) + (if sl.cic.cfgd then 64 else 0) + (if sl.psk.cfgd then 128 else 0)) := by
  simp only [← toNat_srcStateCode, ite_eq_toNat_mul, ← toNat_slotFlags]
  rw [BitVec.ofNat_toNat, BitVec.setWidth_eq]

/-! ### The commands on a slot that exists -/

section
variable {s : State} {k : BitVec 8} (hk : k.toNat < s.cfg.nsrc)
include hk

theorem exec_srcStatus :
    exec (.srcStatus k) s =
      .next (s.put k { s.slot k.toNat with src := { (s.slot k.toNat).src with ovf := false } }
        [slotFlags (s.slot k.toNat), u32 (s.slot k.toNat).src.q.length, (s.slot k.toNat).src.ovfCount]) := by
  change execSrcStatus k s = _
  rw [execSrcStatus, withSlot_present hk]
  exact succeed_eq (by simp) _

theorem exec_srcAttach (consumer tap : Bool) :
    exec (.srcAttach k consumer tap) s =
      .next (s.put k
        { s.slot k.toNat with src := { (s.slot k.toNat).src with consumer := consumer, tapen := tap } } []) := by
  change execSrcAttach k consumer tap s = _
  rw [execSrcAttach, withSlot_present hk]
  exact succeed_eq (by simp) _

theorem exec_srcSetcorr_of_stopped (corr : Word) (hstate : (s.slot k.toNat).src.state = .stopped) :
    exec (.srcSetcorr k corr) s = .next (s.raise (0x36000000#32 ||| slotBits k) .stopped) := by
  change execSrcSetcorr k corr s = _
  rw [execSrcSetcorr, withSource_stopped hk hstate, header_srcSetcorr]

theorem exec_srcSetcorr_of_free (corr : Word) (hstate : (s.slot k.toNat).src.state = .free) :
    exec (.srcSetcorr k corr) s = .next (s.raise (0x36000000#32 ||| slotBits k) .state) := by
  change execSrcSetcorr k corr s = _
  rw [execSrcSetcorr, withSource_refused hk (by simp [hstate]) (by simp [hstate]), header_srcSetcorr]

/-- The increment is that of the source's offset under the new correction; the phase stays (45_src.md R313). -/
theorem exec_srcSetcorr_of_live (corr : Word)
    (hstate : (s.slot k.toNat).src.state = .idle ∨ (s.slot k.toNat).src.state = .running) :
    exec (.srcSetcorr k corr) s = .next (s.put k
      { s.slot k.toNat with
        src := { (s.slot k.toNat).src with corr := corr }
        mix := { (s.slot k.toNat).mix with
          inc := mixInc (s.fc.freq.toInt - (s.slot k.toNat).src.chFreq.toInt - corr.toInt) s.fc.rate } } []) := by
  have hstopped : (s.slot k.toNat).src.state ≠ .stopped := by
    rcases hstate with h | h <;> simp [h]
  change execSrcSetcorr k corr s = _
  rw [execSrcSetcorr, withSource_applies hk hstopped (decide_eq_true hstate)]
  exact succeed_eq (by simp) _

end

/-- Settles O32: the three records, then each command on a slot that exists, state by state. -/
theorem srcStatusAttachSetcorr : Obligations.SrcStatusAttachSetcorr := by
  intro k consumer tap corr s
  refine ⟨congrArg (· :: []) (header_srcStatus k), congrArg (· :: []) (header_srcAttach k consumer tap),
    congrArg (· :: [corr]) (header_srcSetcorr k corr), fun hk => ⟨?status, exec_srcAttach hk consumer tap,
      exec_srcSetcorr_of_stopped hk corr, exec_srcSetcorr_of_free hk corr, exec_srcSetcorr_of_live hk corr⟩⟩
  case status =>
    rw [← slotFlags_eq]
    exact exec_srcStatus hk

end Sys2Proof.Proofs.SrcRegisters
end

section
/-! PROOF. `SYS.NOP`, `SYS.STATUS` and `SYS.INFO` (46_sys.md R331, R333, R334).

The three commands read no operand and test nothing, so each succeeds in every state. -/

namespace Sys2Proof.Proofs.SysNopStatusInfo

open Sys2Proof.Machine

theorem exec_sysNop (s : State) : exec .sysNop s = .next (s.answering []) :=
  TunerRegisters.succeed_nil s

/-- The answer holds the error registers as they were before the status and the information are cleared. -/
theorem exec_sysStatus (s : State) :
    exec .sysStatus s =
      .next (({ s with err := { s.err with stat := 0, info := 0 } } : State).answering
        [s.err.stat.setWidth 32, s.err.info, s.err.cnt]) :=
  succeed_eq (by simp) _

theorem exec_sysInfo (s : State) :
    exec .sysInfo s =
      .next (s.answering [version, u32 s.cfg.nsrc, u32 s.cfg.cicOrder, u32 s.cfg.outBlock, u32 s.cfg.qcap,
        u32 s.cfg.drainCap, u32 s.cfg.cacheCap, u32 s.cfg.nlisten]) :=
  succeed_eq (by simp) s

/-- Settles O12: the three headers, then each command's answer; `ERRSTAT` is zero-extended to a word (R333). -/
theorem sysNopStatusInfoAnswer : Obligations.SysNopStatusInfoAnswer := by
  intro s
  refine ⟨⟨rfl, rfl, rfl⟩, exec_sysNop s, ?status, exec_sysInfo s⟩
  case status =>
    rw [BitVec.ofNat_toNat]
    exact exec_sysStatus s

end Sys2Proof.Proofs.SysNopStatusInfo
end

section
/-! PROOF. Records: the decoder reads back what the encoder writes, and a header is legal exactly by its row of the
opcode table (30_encoding.md R100 to R108). -/

namespace Sys2Proof.Proofs.Records

open Sys2Proof.Machine

/-! ### Decoding what was encoded -/

/-- The header of a well-formed command asks for the operand words of its record (R103). -/
theorem operandWords_header : ∀ i : Instr, Laws.RecordLength.Statement i
  | .sysNop => Laws.RecordLength.sysNop
  | .sysReset => Laws.RecordLength.sysReset
  | .sysStatus => Laws.RecordLength.sysStatus
  | .sysInfo => Laws.RecordLength.sysInfo
  | .fcGetfreq => Laws.RecordLength.fcGetfreq
  | .fcSetfreq _ => Laws.RecordLength.fcSetfreq _
  | .fcGetrate => Laws.RecordLength.fcGetrate
  | .fcSetrate _ => Laws.RecordLength.fcSetrate _
  | .fcSetppm _ => Laws.RecordLength.fcSetppm _
  | .fcSetbounds _ _ => Laws.RecordLength.fcSetbounds _ _
  | .fcSetblackout _ => Laws.RecordLength.fcSetblackout _
  | .fcSetusable _ _ => Laws.RecordLength.fcSetusable _ _
  | .fcGetstate => Laws.RecordLength.fcGetstate
  | .fcListen _ => Laws.RecordLength.fcListen _
  | .allocGetsource _ _ _ _ _ => Laws.RecordLength.allocGetsource _ _ _ _ _
  | .allocRelease _ => Laws.RecordLength.allocRelease _
  | .allocQuery _ => Laws.RecordLength.allocQuery _
  | .srcStart _ => Laws.RecordLength.srcStart _
  | .srcStop _ => Laws.RecordLength.srcStop _
  | .srcDrain _ => Laws.RecordLength.srcDrain _
  | .srcFeed _ => Laws.RecordLength.srcFeed _
  | .srcStatus _ => Laws.RecordLength.srcStatus _
  | .srcAttach _ _ _ => Laws.RecordLength.srcAttach _ _ _
  | .srcSetcorr _ _ => Laws.RecordLength.srcSetcorr _ _
  | .mixSetfreq _ _ _ => Laws.RecordLength.mixSetfreq _ _ _
  | .mixNext _ => Laws.RecordLength.mixNext _
  | .mixStep _ _ => Laws.RecordLength.mixStep _ _
  | .mixGetstate _ => Laws.RecordLength.mixGetstate _
  | .cicCfg _ _ _ _ _ => Laws.RecordLength.cicCfg _ _ _ _ _
  | .cicPush _ _ => Laws.RecordLength.cicPush _ _
  | .cicPushblk _ _ => Laws.RecordLength.cicPushblk _ _
  | .cicGetcfg _ _ => Laws.RecordLength.cicGetcfg _ _
  | .pskCfg _ _ _ _ _ _ _ _ => Laws.RecordLength.pskCfg _ _ _ _ _ _ _ _
  | .pskStep _ _ => Laws.RecordLength.pskStep _ _
  | .pskStepblk _ _ => Laws.RecordLength.pskStepblk _ _
  | .pskGetstate _ => Laws.RecordLength.pskGetstate _

/-! The fields that share IMM, read back from it (R106). -/

@[simp] theorem getElem_attachImm_consumer (consumer tap : Bool) : (attachImm consumer tap)[0] = consumer := by
  revert consumer tap
  decide

@[simp] theorem getElem_attachImm_tap (consumer tap : Bool) : (attachImm consumer tap)[1] = tap := by
  revert consumer tap
  decide

@[simp] theorem extractLsb'_pskImm (sps : BitVec 8) (ted : Bool) : (pskImm sps ted).extractLsb' 0 8 = sps := by
  apply BitVec.eq_of_getLsbD_eq
  intro j hj
  simp only [pskImm, BitVec.getLsbD_extractLsb', BitVec.getLsbD_append, hj, Nat.zero_add, decide_true, Bool.true_and,
    if_true]

@[simp] theorem getElem_pskImm_ted (sps : BitVec 8) (ted : Bool) : (pskImm sps ted)[8] = ted := by
  rw [← BitVec.getLsbD_eq_getElem, pskImm, BitVec.getLsbD_append, BitVec.getLsbD_append]
  cases ted <;> rfl

/-- The header and the operand words of a command stand for that command (R106). -/
theorem instrOf_header_operands (i : Instr) : instrOf i.header i.operands = some i := by
  unfold instrOf Instr.header Instr.operands
  cases i
  all_goals
    dsimp only
    rw [opcOf_headerWord]
    conv_lhs => whnf
  all_goals simp

/-- A legal header with its operand words behind it is read as the command they stand for (R103). -/
theorem decode_of_operandWords {h : Word} {ops rest : List Word} {i : Instr}
    (hn : operandWords h = some ops.length) (hi : instrOf h ops = some i) :
    decode (h :: (ops ++ rest)) = .command i rest := by
  simp [decode, hn, hi]

/-- Settles O1: the header gives the length, the fields and the operands give the command. -/
theorem decodeOfEncodeIsTheCommand : Obligations.DecodeOfEncodeIsTheCommand := fun i _ hi =>
  decode_of_operandWords (operandWords_header i hi) (instrOf_header_operands i)

/-- Settles O3, by reading the words. -/
theorem writtenOutRecordsDecode : Obligations.WrittenOutRecordsDecode := by
  refine ⟨?_, ?_, ?_, ?_, ?_, ?_, ?_⟩ <;> rfl

/-! ### Legal headers -/

/-- A word is its three fields. -/
theorem headerWord_fields (h : Word) : headerWord (opcOf h) (slotOf h) (immOf h) = h := by
  unfold headerWord opcOf slotOf immOf
  rw [BitVec.extractLsb'_append_extractLsb'_eq_extractLsb' (by rfl)]
  exact (BitVec.extractLsb'_append_extractLsb'_eq_extractLsb' (by rfl)).trans BitVec.extractLsb'_eq_self

theorem eq_iff_fields (a b : Word) : a = b ↔ opcOf a = opcOf b ∧ slotOf a = slotOf b ∧ immOf a = immOf b := by
  refine ⟨fun h => by simp [h], fun ⟨ho, hs, hi⟩ => ?_⟩
  rw [← headerWord_fields a, ho, hs, hi, headerWord_fields]

/-- Every row matches all of OPC, and SLOT and IMM against zeros (R107). -/
theorem row_fields : ∀ r ∈ opcodeTable,
    opcOf r.maskBits = BitVec.allOnes 8 ∧ slotOf r.matchBits = 0#8 ∧ immOf r.matchBits = 0#16 := by decide

/-- The SLOT and IMM bits that the row's mask keeps are zero in the header. -/
def ReservedZero (r : OpcodeRow) (h : Word) : Prop :=
  slotOf h &&& slotOf r.maskBits = 0#8 ∧ immOf h &&& immOf r.maskBits = 0#16

theorem selectedBy_iff {r : OpcodeRow} (hr : r ∈ opcodeTable) (h : Word) :
    r.selectedBy h = true ↔ opcOf h = opcOf r.matchBits ∧ ReservedZero r h := by
  obtain ⟨hopc, hslot, himm⟩ := row_fields r hr
  have hfields (a b : Word) : opcOf (a &&& b) = opcOf a &&& opcOf b ∧ slotOf (a &&& b) = slotOf a &&& slotOf b ∧
      immOf (a &&& b) = immOf a &&& immOf b :=
    ⟨BitVec.extractLsb'_and, BitVec.extractLsb'_and, BitVec.extractLsb'_and⟩
  obtain ⟨ho, hs, hi⟩ := hfields h r.maskBits
  rw [OpcodeRow.selectedBy, beq_iff_eq, eq_iff_fields, ho, hs, hi, hopc, hslot, himm, BitVec.and_allOnes, ReservedZero]

/-- No two rows have one opcode. -/
theorem opcodes_distinct : opcodeTable.Pairwise fun r r' => opcOf r.matchBits ≠ opcOf r'.matchBits := by decide

theorem eq_of_opc {r r' : OpcodeRow} (hr : r ∈ opcodeTable) (hr' : r' ∈ opcodeTable)
    (ho : opcOf r.matchBits = opcOf r'.matchBits) : r = r' :=
  List.inj_on_of_nodup_map (List.pairwise_map.mpr opcodes_distinct) hr hr' ho

/-- The row of an opcode. -/
def rowOf (opc : BitVec 8) : Option OpcodeRow := opcodeTable.find? fun r => opcOf r.matchBits = opc

theorem exists_selected_iff (h : Word) :
    (∃ r ∈ opcodeTable, r.selectedBy h = true) ↔ ∃ r, rowOf (opcOf h) = some r ∧ ReservedZero r h := by
  constructor
  · rintro ⟨r, hr, hsel⟩
    obtain ⟨ho, hz⟩ := (selectedBy_iff hr h).mp hsel
    obtain ⟨r', hr'⟩ : ∃ r', rowOf (opcOf h) = some r' :=
      Option.isSome_iff_exists.mp (List.find?_isSome.mpr ⟨r, hr, decide_eq_true ho.symm⟩)
    have ho' : opcOf r'.matchBits = opcOf h := by simpa using List.find?_some hr'
    obtain rfl := eq_of_opc hr (List.mem_of_find?_eq_some hr') (ho.symm.trans ho'.symm)
    exact ⟨r, hr', hz⟩
  · rintro ⟨r, hr, hz⟩
    have ho : opcOf r.matchBits = opcOf h := by simpa using List.find?_some hr
    exact ⟨r, List.mem_of_find?_eq_some hr, (selectedBy_iff (List.mem_of_find?_eq_some hr) h).mpr ⟨ho.symm, hz⟩⟩

theorem row_iff {h : Word} {n : Nat} {r : OpcodeRow} (ho : (opcOf h).toNat = n)
    (hr : rowOf (BitVec.ofNat 8 n) = some r) :
    (∃ r', rowOf (opcOf h) = some r' ∧ ReservedZero r' h) ↔ ReservedZero r h := by
  have hopc : opcOf h = BitVec.ofNat 8 n := by rw [← ho, BitVec.ofNat_toNat, BitVec.setWidth_eq]
  simp [hopc, hr]

theorem opcodes_listed : ∀ r ∈ opcodeTable, (opcOf r.matchBits).toNat ∈
    [0x00, 0x01, 0x02, 0x03, 0x10, 0x11, 0x12, 0x13, 0x14, 0x15, 0x16, 0x17, 0x18, 0x19, 0x20, 0x21, 0x22, 0x30, 0x31,
      0x32, 0x33, 0x34, 0x35, 0x36, 0x40, 0x41, 0x42, 0x43, 0x50, 0x51, 0x52, 0x53, 0x60, 0x61, 0x62, 0x63] := by
  decide

/-! What each form of header tests, as the masks of its rows say it. -/

theorem isSome_plainForm (h : Word) (n : Nat) :
    (plainForm h n).isSome = true ↔ slotOf h &&& 0xFF#8 = 0#8 ∧ immOf h &&& 0xFFFF#16 = 0#16 := by
  have hs : slotOf h &&& 0xFF#8 = slotOf h := BitVec.and_allOnes
  have hi : immOf h &&& 0xFFFF#16 = immOf h := BitVec.and_allOnes
  simp [plainForm, hs, hi]

theorem isSome_immForm (h : Word) (n : Nat) :
    (immForm h n).isSome = true ↔ slotOf h &&& 0xFF#8 = 0#8 ∧ immOf h &&& 0#16 = 0#16 := by
  have hs : slotOf h &&& 0xFF#8 = slotOf h := BitVec.and_allOnes
  simp [immForm, hs]

theorem isSome_slotForm (h : Word) (zeroBits : BitVec 16) (n : Nat) :
    (slotForm h zeroBits n).isSome = true ↔ slotOf h &&& 0#8 = 0#8 ∧ immOf h &&& zeroBits = 0#16 := by
  simp [slotForm]

theorem isSome_openForm (h : Word) (n : Nat) :
    (some n).isSome = true ↔ slotOf h &&& 0#8 = 0#8 ∧ immOf h &&& 0#16 = 0#16 := by
  simp

theorem operandWords_isSome_iff (h : Word) :
    (operandWords h).isSome = true ↔ ∃ r, rowOf (opcOf h) = some r ∧ ReservedZero r h := by
  unfold operandWords
  split
  case h_37 =>
    refine iff_of_false (by simp) ?_
    rintro ⟨r, hr, -⟩
    have hopc : opcOf r.matchBits = opcOf h := by simpa using List.find?_some hr
    have hlisted := opcodes_listed r (List.mem_of_find?_eq_some hr)
    rw [hopc] at hlisted
    simp_all
  all_goals
    rw [row_iff ‹_› rfl]
    simp only [isSome_plainForm, isSome_immForm, isSome_slotForm, isSome_openForm h]
    rfl

/-- Settles O2: the rows have distinct opcodes, and for each opcode the decoder tests the bits the row's mask keeps. -/
theorem legalHeaderSelectsOneRow : Obligations.LegalHeaderSelectsOneRow := by
  refine fun h => ⟨(operandWords_isSome_iff h).trans (exists_selected_iff h).symm, fun r hr r' hr' hsel hsel' => ?_⟩
  obtain ⟨ho, -⟩ := (selectedBy_iff hr h).mp hsel
  obtain ⟨ho', -⟩ := (selectedBy_iff hr' h).mp hsel'
  exact eq_of_opc hr hr' (ho.symm.trans ho')

end Sys2Proof.Proofs.Records
end

section
/-! PROOF. The step: a record is consumed and its command executed (00_scope.md R2; 20_memory.md R82, R85, R89).

No command reads the words pending behind its record, so a stream of records runs as its commands one after another. -/

namespace Sys2Proof.Proofs.Stepping

open Sys2Proof.Machine

/-! ### What a step finds at the command port -/

theorem step_of_command {s : State} {i : Instr} {rest : List Word} (h : decode s.cmd = .command i rest) :
    step s = exec i (s.consume rest) := by
  unfold step State.fetch
  rw [h]

theorem step_of_illegal {s : State} {header : Word} {rest : List Word} (h : decode s.cmd = .illegal header rest) :
    step s = .next (s.rejectHeader header rest) := by
  unfold step State.fetch
  rw [h]

theorem step_of_cutShort {s : State} (h : decode s.cmd = .cutShort) : step s = .fault .cutShort := by
  unfold step State.fetch
  rw [h]

/-- Settles O4. -/
theorem stepRunsTheDecodedCommand : Obligations.StepRunsTheDecodedCommand := fun _ _ _ _ h => step_of_command h

/-- What an execution keeps, whatever words are pending, a step keeps: it waits, rejects a header or executes. -/
theorem step_keeps {P : State → Prop} (hconsume : ∀ s ws, P s → P (s.consume ws))
    (hraise : ∀ s h e, P s → P (s.raise h e)) (hexec : ∀ i s t, P s → exec i s = .next t → P t) {s t : State} (h : P s)
    (hstep : step s = .next t) : P t := by
  unfold step at hstep
  split at hstep
  · cases hstep
    exact h
  · cases hstep
  · cases hstep
    exact hraise _ _ _ (hconsume _ _ h)
  · exact hexec _ _ _ (hconsume _ _ h) hstep

/-- A header that no row selects is illegal, whatever follows it (30_encoding.md R108). -/
theorem decode_of_not_selected {h : Word} (hsel : ∀ r ∈ opcodeTable, r.selectedBy h = false) (ws : List Word) :
    decode (h :: ws) = .illegal h ws := by
  have hnone : operandWords h = none := by
    have hlegal := (Records.legalHeaderSelectsOneRow h).1
    rw [← Option.not_isSome_iff_eq_none, hlegal]
    rintro ⟨r, hr, hs⟩
    simp [hsel r hr] at hs
  simp [decode, hnone]

/-- Settles O5: the header is illegal, and error entry records it. -/
theorem illegalHeaderConsumesOneWord : Obligations.IllegalHeaderConsumesOneWord := by
  intro s h rest hcmd hsel
  rw [step_of_illegal (hcmd ▸ decode_of_not_selected hsel rest), State.rejectHeader, raise_eq, satInc_eq]
  rfl

/-- A legal header with too few operand words behind it is no command (20_memory.md R85). -/
theorem decode_of_cutShort {h : Word} {n : Nat} (hn : operandWords h = some n) {ws : List Word} (hlt : ws.length < n) :
    decode (h :: ws) = .cutShort := by
  simp [decode, hn, hlt]

/-- Settles O6: a record that lacks words is cut short, and an empty port gives no record. -/
theorem cutShortStopsAndIdleWaits : Obligations.CutShortStopsAndIdleWaits := by
  refine ⟨fun s i k hi hk hcmd => ?_, fun s hcmd => ?_⟩
  · refine step_of_cutShort ?_
    rw [hcmd]
    exact decode_of_cutShort (Records.operandWords_header i hi) (by rw [List.length_take]; omega)
  · unfold step State.fetch
    rw [hcmd]
    rfl

/-! ### A command reads no pending word -/

/-- Both outcomes are next states, and they differ in the pending words only, which are `ws` in the second. -/
def Alike (ws : List Word) (r r' : Result) : Prop := ∃ t, r = .next t ∧ r' = .next (t.consume ws)

section
variable {ws : List Word} {s : State} {header : Word} {k : BitVec 8}

theorem alike_fail (header : Word) (e : Status) (s : State) :
    Alike ws (fail header e s) (fail header e (s.consume ws)) :=
  ⟨_, rfl, rfl⟩

theorem alike_succeed (rs : List Word) (t : State) : Alike ws (succeed rs t) (succeed rs (t.consume ws)) :=
  ⟨_, rfl, rfl⟩

theorem alike_ite {c : Prop} [Decidable c] {a b a' b' : Result} (ht : Alike ws a a') (he : Alike ws b b') :
    Alike ws (if c then a else b) (if c then a' else b') := by
  split
  · exact ht
  · exact he

variable {body body' : Slot → Result} (h : ∀ sl, Alike ws (body sl) (body' sl))
include h

theorem alike_withSlot : Alike ws (withSlot header k s body) (withSlot header k (s.consume ws) body') :=
  alike_ite (alike_fail header .slot s) (h _)

theorem alike_withStandalone :
    Alike ws (withStandalone header k s body) (withStandalone header k (s.consume ws) body') :=
  alike_withSlot fun sl => alike_ite (alike_fail header .state s) (h sl)

theorem alike_withSource {p : SrcState → Bool} :
    Alike ws (withSource header k s p body) (withSource header k (s.consume ws) p body') :=
  alike_withSlot fun sl =>
    alike_ite (alike_fail header .stopped s) (alike_ite (h sl) (alike_fail header .state s))

end

theorem grant_consume (s : State) (r : BitVec 16) (freq : BitVec 64) (bw pass stop : Word) (g : Grant)
    (ws : List Word) :
    (s.consume ws).grant r freq bw pass stop g = (s.grant r freq bw pass stop g).consume ws := by
  unfold State.grant
  cases g.tuned <;> rfl

/-- The commands without a SLOT field. -/
theorem exec_alike_control {i : Instr} (hi : slotField i = none) (s : State) (ws : List Word) :
    Alike ws (exec i s) (exec i (s.consume ws)) := by
  have hfail (header : Word) (e : Status) := alike_fail (ws := ws) header e s
  cases i <;> simp only [slotField, reduceCtorEq] at hi <;> simp only [exec]
  case sysNop | sysReset | sysStatus | sysInfo | fcGetfreq | fcGetrate | fcGetstate | allocQuery =>
    exact ⟨_, rfl, rfl⟩
  case fcSetblackout | fcListen | srcFeed =>
    exact alike_ite (hfail _ _) ⟨_, rfl, rfl⟩
  case fcSetrate | fcSetusable =>
    exact alike_ite (hfail _ _) (alike_ite (hfail _ _) ⟨_, rfl, rfl⟩)
  case fcSetbounds =>
    exact alike_ite (hfail _ _) (alike_ite (hfail _ _) (alike_ite (hfail _ _) ⟨_, rfl, rfl⟩))
  case fcSetfreq f =>
    refine alike_ite (hfail _ _) (alike_ite (hfail _ _) ?_)
    change Alike ws _ (match freqCheck s f.toInt s.fc.ppm.toInt with | .error e => _ | .ok t => _)
    cases freqCheck s f.toInt s.fc.ppm.toInt <;> exact ⟨_, rfl, rfl⟩
  case fcSetppm ppm =>
    refine alike_ite (hfail _ _) (alike_ite ?_ ⟨_, rfl, rfl⟩)
    change Alike ws _ (match freqCheck s s.fc.freq.toInt ppm.toInt with | .error e => _ | .ok t => _)
    cases freqCheck s s.fc.freq.toInt ppm.toInt <;> exact ⟨_, rfl, rfl⟩
  case allocGetsource r freq bw pass stop =>
    unfold execAllocGetsource
    change Alike ws _ (match allocate s r freq bw pass stop with | .error e => _ | .ok g => _)
    cases allocate s r freq bw pass stop with
    | error e => exact hfail _ e
    | ok g =>
      dsimp only
      rw [grant_consume]
      exact alike_succeed _ _
  case allocRelease freq =>
    unfold execAllocRelease
    change Alike ws _ (match s.active.find? fun c => c.freq = freq with | none => _ | some e => _)
    cases s.active.find? fun c => c.freq = freq <;> exact ⟨_, rfl, rfl⟩

/-- The commands on a slot. -/
theorem exec_alike_slot {i : Instr} (hi : slotField i ≠ none) (s : State) (ws : List Word) :
    Alike ws (exec i s) (exec i (s.consume ws)) := by
  have hfail (header : Word) (e : Status) := alike_fail (ws := ws) header e s
  cases i <;> simp only [slotField, ne_eq, not_true_eq_false, reduceCtorEq] at hi <;> simp only [exec]
  case srcStart | srcStop | srcDrain | srcSetcorr => exact alike_withSource fun _ => ⟨_, rfl, rfl⟩
  case srcStatus | srcAttach | mixGetstate | cicGetcfg | pskGetstate => exact alike_withSlot fun _ => ⟨_, rfl, rfl⟩
  case mixSetfreq | mixNext | mixStep | cicPush | cicPushblk | pskStep | pskStepblk =>
    exact alike_withStandalone fun _ => alike_ite (hfail _ _) ⟨_, rfl, rfl⟩
  case pskCfg => exact alike_withSlot fun _ => alike_ite (hfail _ _) (alike_ite ⟨_, rfl, rfl⟩ (hfail _ _))
  case cicCfg k r rate pass stop =>
    refine alike_withStandalone fun _ => alike_ite (hfail _ _) ?_
    change Alike ws _ (match cicConstruct s rate r pass stop with | .error e => _ | .ok p => _)
    cases cicConstruct s rate r pass stop <;> exact ⟨_, rfl, rfl⟩

/-- Every command answers, and neither its answer nor what it writes depends on the pending words. -/
theorem exec_alike (i : Instr) (s : State) (ws : List Word) : Alike ws (exec i s) (exec i (s.consume ws)) := by
  by_cases hi : slotField i = none
  · exact exec_alike_control hi s ws
  · exact exec_alike_slot hi s ws

theorem exec_eq_after (i : Instr) (s : State) : exec i s = .next (after i s) := by
  obtain ⟨t, ht, -⟩ := exec_alike i s []
  rw [after, ht]

theorem after_consume (i : Instr) (s : State) (ws : List Word) : after i (s.consume ws) = (after i s).consume ws := by
  obtain ⟨t, ht, ht'⟩ := exec_alike i s ws
  rw [after, after, ht, ht']

theorem afterAll_consume (is : List Instr) (s : State) (ws : List Word) :
    afterAll is (s.consume ws) = (afterAll is s).consume ws := by
  induction is generalizing s with
  | nil => rfl
  | cons i is ih =>
    show afterAll is (after i (s.consume ws)) = (afterAll is (after i s)).consume ws
    rw [after_consume, ih]

/-! ### Streams of records -/

theorem mem_of_interleaves {as bs cs : List Instr} (h : Interleaves as bs cs) {i : Instr} (hi : i ∈ cs) :
    i ∈ as ∨ i ∈ bs := by
  induction h with
  | nil => simp at hi
  | left j as bs cs _ ih =>
    rcases List.mem_cons.mp hi with rfl | hi
    · exact .inl List.mem_cons_self
    · exact (ih hi).imp_left (List.mem_cons_of_mem j)
  | right j as bs cs _ ih =>
    rcases List.mem_cons.mp hi with rfl | hi
    · exact .inr List.mem_cons_self
    · exact (ih hi).imp_right (List.mem_cons_of_mem j)

/-- A step at a stream of records runs its first command and leaves the others pending. -/
theorem step_of_stream {s : State} {i : Instr} {cs : List Instr} (hi : i.wellFormed = true)
    (hcmd : s.cmd = streamOf (i :: cs)) : step s = .next ((after i s).consume (streamOf cs)) := by
  have hdecode : decode s.cmd = .command i (streamOf cs) := by
    rw [hcmd]
    exact Records.decodeOfEncodeIsTheCommand i (streamOf cs) hi
  rw [step_of_command hdecode, exec_eq_after, after_consume]

theorem run_of_step {M : Host.Core} {s t : M.State} (h : M.step s = .next t) (n : Nat) :
    M.run (n + 1) s = M.run n t := by
  rw [Host.Core.run, h]

/-- As many steps as there are commands run a stream of records to its end. -/
theorem run_stream {cs : List Instr} (hcs : ∀ i ∈ cs, i.wellFormed = true) {s : State} (hcmd : s.cmd = streamOf cs) :
    Host.Core.run core cs.length s = .next ((afterAll cs s).consume []) := by
  induction cs generalizing s with
  | nil =>
    have hnone : s.cmd = [] := hcmd
    rw [afterAll, List.foldl_nil, State.consume, ← hnone]
    rfl
  | cons i cs ih =>
    have hstep : core.step s = .next ((after i s).consume (streamOf cs)) :=
      step_of_stream (hcs i List.mem_cons_self) hcmd
    refine (run_of_step hstep cs.length).trans ((ih (fun j hj => hcs j (List.mem_cons_of_mem i hj)) rfl).trans ?_)
    rw [afterAll_consume]
    rfl

/-- Settles O7, by induction on the merged stream. -/
theorem interleavedStreamsRunInOrder : Obligations.InterleavedStreamsRunInOrder :=
  fun _ _ _ _ hmerge has hbs hcmd =>
    run_stream (fun i hi => (mem_of_interleaves hmerge hi).elim (has i) (hbs i)) hcmd

end Sys2Proof.Proofs.Stepping
end

section
/-! PROOF. Every step keeps the shape of every constructed decimator (10_state.md R47 to R49).

A pushed sample rewrites registers in place: a Stage one entry of its circle, a Decimating Stage its counter, the filter
its line, the block former one entry of its block. So every length stays and every index stays in range. -/

namespace Sys2Proof.Proofs.DecimatorShapes

open Sys2Proof.Machine

/-! ### One sample -/

/-- The shape of one Decimating Stage (R47, R48). -/
def DecStageOk (c : Config) (d : DecStage) : Prop :=
  2 ≤ d.fact.toNat ∧ d.dcnt < d.fact.toNat ∧ d.st.length = c.cicOrder ∧ ∀ st ∈ d.st, StageOk d.fact.toNat st

theorem stageOk_stageStep {f : Nat} {st : Stage} (h : StageOk f st) (x : C32) : StageOk f (stageStep f st x).1 := by
  obtain ⟨hlen, hidx⟩ := h
  unfold stageStep
  split
  · next htwo =>
    subst htwo
    exact ⟨by simpa [stageTwoTap] using hlen, Nat.one_pos⟩
  · exact ⟨by simpa [stageMoving] using hlen, Nat.mod_lt _ (by omega)⟩

theorem stagesOk_stagesStep {f : Nat} {sts : List Stage} (h : ∀ st ∈ sts, StageOk f st) (x : C32) :
    (stagesStep f sts x).1.length = sts.length ∧ ∀ st ∈ (stagesStep f sts x).1, StageOk f st := by
  induction sts generalizing x with
  | nil => exact ⟨rfl, h⟩
  | cons st sts ih =>
    obtain ⟨hst, hsts⟩ := List.forall_mem_cons.mp h
    obtain ⟨hlen, hrest⟩ := ih hsts (stageStep f st x).2
    exact ⟨congrArg (· + 1) hlen, List.forall_mem_cons.mpr ⟨stageOk_stageStep hst x, hrest⟩⟩

theorem decStageOk_decStageStep {c : Config} {d : DecStage} (h : DecStageOk c d) (x : C32) :
    DecStageOk c (decStageStep d x).1 := by
  obtain ⟨hfact, hcount, hlen, hstages⟩ := h
  obtain ⟨hlen', hstages'⟩ := stagesOk_stagesStep hstages x
  unfold decStageStep
  dsimp only
  split
  · exact ⟨hfact, show 0 < d.fact.toNat by omega, hlen'.trans hlen, hstages'⟩
  · exact ⟨hfact, show d.dcnt + 1 < d.fact.toNat by omega, hlen'.trans hlen, hstages'⟩

theorem decStagesOk_chainStep {c : Config} {ds : List DecStage} (h : ∀ d ∈ ds, DecStageOk c d) (x : C32) :
    ∀ d ∈ (chainStep ds x).1, DecStageOk c d := by
  induction ds generalizing x with
  | nil => exact h
  | cons d ds ih =>
    obtain ⟨hd, hds⟩ := List.forall_mem_cons.mp h
    have hstep := decStageOk_decStageStep hd x
    unfold chainStep
    split <;> rename_i heq <;> rw [heq] at hstep
    · exact List.forall_mem_cons.mpr ⟨hstep, hds⟩
    · exact List.forall_mem_cons.mpr ⟨hstep, ih hds _⟩

theorem cicOk_firStep {c : Config} {u : Cic} (h : CicOk c u) (y : C32) : CicOk c (firStep u y).1 := by
  intro hcfgd
  obtain ⟨hds, hline, hblock⟩ := h hcfgd
  exact ⟨hds, by simpa [firStep, shiftIn] using hline, hblock⟩

theorem cicOk_blockPut {c : Config} {u : Cic} (h : CicOk c u) (z : C32) : CicOk c (blockPut c.outBlock u z).1 := by
  have hshape (n : Nat) (hn : u.cfgd = true → n < c.outBlock) :
      CicOk c { u with blk := u.blk.set u.blkn z, blkn := n } := by
    intro hcfgd
    obtain ⟨hds, hline, hblk, -⟩ := h hcfgd
    exact ⟨hds, hline, List.length_set.trans hblk, hn hcfgd⟩
  have hfill (hcfgd : u.cfgd = true) : u.blkn < c.outBlock := by
    obtain ⟨-, -, -, hlt⟩ := h hcfgd
    exact hlt
  by_cases hfull : u.blkn + 1 = c.outBlock
  · rw [blockPut, if_pos hfull]
    exact hshape 0 fun _ => by omega
  · rw [blockPut, if_neg hfull]
    exact hshape (u.blkn + 1) fun hcfgd => by have := hfill hcfgd; omega

theorem cicOk_cicRun {c : Config} {u : Cic} (h : CicOk c u) (x : C32) : CicOk c (cicRun c u x).cic := by
  have hchain : CicOk c { u with ds := (chainStep u.ds x).1 } := by
    intro hcfgd
    obtain ⟨hds, hrest⟩ := h hcfgd
    exact ⟨decStagesOk_chainStep hds x, hrest⟩
  unfold cicRun
  split <;> rename_i heq <;> rw [heq] at hchain
  · exact hchain
  · exact cicOk_blockPut (cicOk_firStep hchain _) _

/-! ### A new decimator -/

/-- One gain a Stage (41_cic.md R160). -/
theorem length_gains {order : Nat} (h : 1 ≤ order) (f : Nat) : (gains order f).length = order := by
  unfold gains
  split
  · next hone => exact hone.symm
  · rw [List.length_append, List.length_replicate, List.length_singleton]
    omega

theorem decStageOk_fresh {c : Config} (horder : 1 ≤ c.cicOrder) {f : Nat} (hf : 2 ≤ f) (hmax : f ≤ 2801) :
    DecStageOk c (freshDecStage c.cicOrder f) := by
  have hfact : (freshDecStage c.cicOrder f).fact.toNat = f := by
    simp only [freshDecStage, BitVec.toNat_ofNat]
    omega
  refine ⟨by rwa [hfact], by rw [hfact]; exact Nat.zero_lt_of_lt hf, ?_, fun st hst => ?_⟩
  · simpa [freshDecStage] using length_gains horder f
  · obtain ⟨g, -, rfl⟩ := List.mem_map.mp hst
    rw [hfact]
    exact ⟨List.length_replicate, show 0 < f - 1 by omega⟩

/-- Construction gives the shape, for the factors of a supported ratio (41_cic.md R167). -/
theorem cicOk_cicInit {c : Config} (hlegal : c.Legal) {rate : Word} {r : BitVec 16} {pass stop : Word} {fs : List Nat}
    {taps : List F32} {ratio : Nat} (hfs : supported ratio = some fs) :
    CicOk c (cicInit c rate r pass stop fs taps) := by
  obtain ⟨-, ⟨horder, -⟩, ⟨hblock, -⟩, -⟩ := hlegal
  obtain ⟨-, hprimes⟩ := PrimeTable.of_supported hfs
  refine fun _ => ⟨fun d hd => ?_, List.length_replicate, List.length_replicate, hblock⟩
  obtain ⟨f, hf, rfl⟩ := List.mem_map.mp hd
  obtain ⟨hprime, hmax⟩ := hprimes f hf
  exact decStageOk_fresh horder hprime.two_le hmax

theorem cicOk_reset (c : Config) : CicOk c Cic.reset := fun h => absurd h (by decide)

/-! ### Work on a slot -/

/-- The decimator of a slot at work keeps its shape. -/
def KeepsShape {α : Type} (c : Config) (f : Work → α → Work) : Prop :=
  ∀ w x, CicOk c w.sl.cic → CicOk c (f w x).sl.cic

section
variable {c : Config}

theorem KeepsShape.foldl {α : Type} {f : Work → α → Work} (hf : KeepsShape c f) :
    KeepsShape c fun w (xs : List α) => xs.foldl f w := by
  intro w xs h
  induction xs generalizing w with
  | nil => exact h
  | cons x xs ih => exact ih (f w x) (hf w x h)

theorem keepsShape_pushOne : KeepsShape c (pushOne c) := by
  intro w x h
  rw [pushOne_sl]
  exact cicOk_cicRun h x

theorem keepsShape_pskOne : KeepsShape c (pskOne c) := by
  intro w x h
  rwa [pskOne_sl]

theorem keepsShape_drainOne : KeepsShape c (drainOne c) := by
  intro w x h
  unfold drainOne
  simp only
  split
  · exact cicOk_cicRun h _
  · rw [route_sl]
    exact cicOk_cicRun h _

theorem keepsShape_drainBuffer : KeepsShape c (drainBuffer c) :=
  fun _ b h => keepsShape_drainOne.foldl _ b h

end

theorem cic_feedSlot (qcap : Nat) (x : List C32) (sl : Slot) : (feedSlot qcap x sl).cic = sl.cic := by
  unfold feedSlot
  split
  · split <;> rfl
  · rfl

theorem cic_reprogram (fc : Fc) (sl : Slot) : (reprogram fc sl).cic = sl.cic := by
  unfold reprogram
  split <;> rfl

/-! ### Every command -/

section
variable {s t : State}

theorem cicOk_slot (h : DecimatorsOk s) (k : Nat) : CicOk s.cfg (s.slot k).cic := by
  rcases slot_mem_or_reset s k with hmem | heq
  · exact h.2 _ hmem
  · rw [heq]
    exact cicOk_reset s.cfg

/-- One slot is written. -/
theorem decimatorsOk_of_set (h : DecimatorsOk s) {k : Nat} {sl : Slot} (hsl : CicOk s.cfg sl.cic)
    (ht : t.slots = s.slots.set k sl) (hcfg : t.cfg = s.cfg) : DecimatorsOk t := by
  rw [DecimatorsOk, hcfg, ht]
  refine ⟨h.1, fun sl' hmem => ?_⟩
  rcases List.mem_or_eq_of_mem_set hmem with hmem | rfl
  · exact h.2 sl' hmem
  · exact hsl

/-- Every slot is written, and no decimator. -/
theorem decimatorsOk_of_map (h : DecimatorsOk s) {f : Slot → Slot} (hf : ∀ sl, (f sl).cic = sl.cic)
    (ht : t.slots = s.slots.map f) (hcfg : t.cfg = s.cfg) : DecimatorsOk t := by
  rw [DecimatorsOk, hcfg, ht]
  refine ⟨h.1, fun sl' hmem => ?_⟩
  obtain ⟨sl, hsl, rfl⟩ := List.mem_map.mp hmem
  rw [hf]
  exact h.2 sl hsl

theorem decimatorsOk_freqCommit (h : DecimatorsOk s) (f u : Int) : DecimatorsOk (s.freqCommit f u) :=
  decimatorsOk_of_map h (cic_reprogram _) rfl rfl

theorem decimatorsOk_release (h : DecimatorsOk s) (k : Nat) : DecimatorsOk (s.release k) :=
  have hslot := cicOk_slot h k
  decimatorsOk_of_set (sl := { s.slot k with src := { (s.slot k).src with state := .stopped, q := [] } }) h hslot rfl
    rfl

theorem decimatorsOk_store (h : DecimatorsOk s) {α : Type} {f : Work → α → Work} (hf : KeepsShape s.cfg f) (k : Nat)
    (x : α) : DecimatorsOk (s.store k (f (workOn (s.slot k)) x)) :=
  decimatorsOk_of_set h (hf _ _ (cicOk_slot h k)) rfl rfl

theorem decimatorsOk_grant (h : DecimatorsOk s) {r : BitVec 16} {freq : BitVec 64} {bw pass stop : Word} {g : Grant}
    (hg : allocate s r freq bw pass stop = .ok g) : DecimatorsOk (s.grant r freq bw pass stop g) := by
  obtain ⟨-, -, -, -, -, -, -, hplan⟩ := allocate_ok hg
  obtain ⟨hfs, -⟩ := cicConstruct_ok hplan
  have hnew : CicOk s.cfg (freshSource s freq bw g.center r pass stop g.plan).cic := cicOk_cicInit h.1 hfs
  have hclaimed : DecimatorsOk (TunerAndAllocator.claimed s r freq bw pass stop g) := decimatorsOk_of_set h hnew rfl rfl
  cases htuned : g.tuned with
  | none => rwa [TunerAndAllocator.grant_of_no_retune htuned]
  | some u =>
    rw [TunerAndAllocator.grant_of_retune htuned]
    exact decimatorsOk_freqCommit hclaimed _ _

/-- A command runs a decimator, constructs one, moves the slots without touching a decimator, or leaves the slots. -/
theorem decimatorsOk_of_done {i : Instr} (h : DecimatorsOk s) (hd : Done i s t) : DecimatorsOk t := by
  have hslot := cicOk_slot h
  cases i
  case sysReset =>
    obtain rfl := hd
    refine ⟨h.1, fun sl hmem => ?_⟩
    rw [List.eq_of_mem_replicate hmem]
    exact cicOk_reset _
  case fcSetfreq f =>
    obtain ⟨-, -, u, -, rfl⟩ := hd
    exact decimatorsOk_freqCommit h _ _
  case fcSetppm ppm =>
    obtain ⟨-, ⟨-, rfl⟩ | ⟨-, u, -, rfl⟩⟩ := hd
    · exact h
    · exact decimatorsOk_freqCommit (s := { s with fc := _ }) h _ u
  case allocGetsource r freq bw pass stop =>
    obtain ⟨g, hg, rfl⟩ := hd
    exact decimatorsOk_grant h hg
  case allocRelease freq =>
    obtain ⟨-, rfl⟩ | ⟨e, -, -, rfl⟩ := hd
    · exact h
    · exact decimatorsOk_release h _
  case srcFeed x =>
    obtain ⟨-, -, rfl⟩ := hd
    exact decimatorsOk_of_map h (cic_feedSlot _ x) rfl rfl
  case fcSetbounds min max =>
    obtain ⟨-, -, -, -, -, rfl⟩ := hd
    exact h
  case fcSetusable num den =>
    obtain ⟨-, -, -, rfl⟩ := hd
    exact h
  case fcSetrate rate =>
    obtain ⟨-, -, rfl⟩ := hd
    exact h
  case fcSetblackout | fcListen =>
    obtain ⟨-, rfl⟩ := hd
    exact h
  case sysNop | sysStatus | sysInfo | fcGetfreq | fcGetrate | fcGetstate | allocQuery =>
    obtain rfl := hd
    exact h
  case cicCfg k r rate pass stop =>
    obtain ⟨-, -, p, hp, rfl⟩ := hd
    obtain ⟨hfs, -⟩ := cicConstruct_ok hp
    have hnew : CicOk s.cfg (cicInit s.cfg rate r pass stop p.fs p.taps) := cicOk_cicInit h.1 hfs
    refine decimatorsOk_of_set (k := k.toNat) h ?_ rfl rfl
    exact hnew
  case cicPush k x =>
    obtain ⟨-, -, w, rfl, rfl⟩ := hd
    exact decimatorsOk_store h keepsShape_pushOne k.toNat x
  case cicPushblk k xs =>
    obtain ⟨-, -, w, rfl, rfl⟩ := hd
    exact decimatorsOk_store h keepsShape_pushOne.foldl k.toNat xs
  case srcDrain k =>
    obtain ⟨-, -, w, rfl, rfl⟩ := hd
    exact decimatorsOk_store h keepsShape_drainBuffer.foldl k.toNat _
  case pskStep k x =>
    obtain ⟨-, -, rfl⟩ := hd
    exact decimatorsOk_store h keepsShape_pskOne k.toNat x
  case pskStepblk k xs =>
    obtain ⟨-, -, w, rfl, rfl⟩ := hd
    exact decimatorsOk_store h keepsShape_pskOne.foldl k.toNat xs
  case srcStop k =>
    obtain ⟨-, -, rfl⟩ := hd
    exact decimatorsOk_release h _
  case mixSetfreq k _ _ | pskCfg k _ _ _ _ _ _ _ =>
    obtain ⟨-, -, -, rfl⟩ := hd
    refine decimatorsOk_of_set (k := k.toNat) h ?_ rfl rfl
    exact hslot k.toNat
  case srcStart k | srcSetcorr k _ | mixNext k | mixStep k _ =>
    obtain ⟨-, -, rfl⟩ := hd
    refine decimatorsOk_of_set (k := k.toNat) h ?_ rfl rfl
    exact hslot k.toNat
  case srcStatus k | srcAttach k _ _ =>
    obtain ⟨-, rfl⟩ := hd
    refine decimatorsOk_of_set (k := k.toNat) h ?_ rfl rfl
    exact hslot k.toNat
  case mixGetstate | cicGetcfg | pskGetstate =>
    obtain ⟨-, rfl⟩ := hd
    exact h

theorem decimatorsOk_of_exec {i : Instr} (h : DecimatorsOk s) (hx : exec i s = .next t) : DecimatorsOk t := by
  rcases exec_cases hx with ⟨e, -, rfl⟩ | hd
  · exact h
  · exact decimatorsOk_of_done h hd

end

/-- Settles O57: each command keeps the shapes. -/
theorem stepKeepsDecimatorShapes : Obligations.StepKeepsDecimatorShapes := fun _ _ =>
  Stepping.step_keeps (P := DecimatorsOk) (fun _ _ h => h) (fun _ _ _ h => h) fun _ _ _ => decimatorsOk_of_exec

end Sys2Proof.Proofs.DecimatorShapes
end

section
/-! PROOF. What a command leaves alone: the other slots, the buffers of a queue, the cached designs, the items on a port
(10_state.md R37, R40, R61; 20_memory.md R83, R90, R94). -/

namespace Sys2Proof.Proofs.Frames

open Sys2Proof.Machine

/-! ### One slot and its ports -/

/-- Everything stays but slot `k`, its two ports, the set, the lock, the cache, and the registers of an answer. -/
structure Elsewhere (k : Nat) (s t : State) : Prop where
  length : t.slots.length = s.slots.length
  slot : ∀ j, j ≠ k → t.slots[j]? = s.slots[j]?
  out : ∀ j, j ≠ k → t.ports.out[j]? = s.ports.out[j]?
  tap : ∀ j, j ≠ k → t.ports.tap[j]? = s.ports.tap[j]?
  dev : t.ports.dev = s.ports.dev
  evt : t.ports.evt = s.ports.evt
  warn : t.ports.warn = s.ports.warn
  fc : t.fc = { s.fc with locked := t.fc.locked }

section
variable {s t : State} {k : Nat}

theorem elsewhere_of_same (hslots : t.slots = s.slots) (hports : t.ports = s.ports) (hfc : t.fc = s.fc) :
    Elsewhere k s t := by
  constructor <;> simp [hslots, hports, hfc]

theorem elsewhere_of_set (sl : Slot) (hslots : t.slots = s.slots.set k sl) (hports : t.ports = s.ports)
    (hfc : t.fc = { s.fc with locked := t.fc.locked }) : Elsewhere k s t where
  length := by rw [hslots, List.length_set]
  slot j hj := by rw [hslots, List.getElem?_set_ne (Ne.symm hj)]
  out _ _ := by rw [hports]
  tap _ _ := by rw [hports]
  dev := by rw [hports]
  evt := by rw [hports]
  warn := by rw [hports]
  fc := hfc

theorem elsewhere_store (s : State) (k : Nat) (w : Work) (rs : List Word) :
    Elsewhere k s ((s.store k w).answering rs) where
  length := List.length_set
  slot _ hj := List.getElem?_set_ne (Ne.symm hj)
  out _ hj := by
    rw [answering_ports, store_eq]
    exact List.getElem?_modify_ne _ _ (Ne.symm hj)
  tap _ hj := by
    rw [answering_ports, store_eq]
    exact List.getElem?_modify_ne _ _ (Ne.symm hj)
  dev := rfl
  evt := rfl
  warn := rfl
  fc := rfl

end

/-- What a command on slot `k` leaves: everything elsewhere; the set and the lock unless it is the stop, the cache
unless it constructs. -/
def SlotFrame (i : Instr) (k : BitVec 8) (s t : State) : Prop :=
  Elsewhere k.toNat s t ∧ (i ≠ .srcStop k → t.fc = s.fc ∧ t.active = s.active) ∧
    ((∀ r rate pass stop, i ≠ .cicCfg k r rate pass stop) → t.cache = s.cache)

theorem slotFrame_of_elsewhere {i : Instr} {k : BitVec 8} {s t : State} (h : Elsewhere k.toNat s t)
    (hfc : t.fc = s.fc := by rfl) (hactive : t.active = s.active := by rfl) (hcache : t.cache = s.cache := by rfl) :
    SlotFrame i k s t :=
  ⟨h, fun _ => ⟨hfc, hactive⟩, fun _ => hcache⟩

theorem slotFrame_of_done {i : Instr} {k : BitVec 8} {s t : State} (hi : slotField i = some k) (hd : Done i s t) :
    SlotFrame i k s t := by
  cases i <;> simp only [slotField, reduceCtorEq, Option.some.injEq] at hi <;> subst hi
  case srcStop =>
    obtain ⟨-, -, rfl⟩ := hd
    exact ⟨elsewhere_of_set _ rfl rfl rfl, fun hne => absurd rfl hne, fun _ => rfl⟩
  case cicCfg r rate pass stop =>
    obtain ⟨-, -, p, -, rfl⟩ := hd
    exact ⟨elsewhere_of_set _ rfl rfl rfl, fun _ => ⟨rfl, rfl⟩, fun hne => absurd rfl (hne r rate pass stop)⟩
  case srcDrain | cicPush | cicPushblk | pskStepblk =>
    obtain ⟨-, -, w, -, rfl⟩ := hd
    exact slotFrame_of_elsewhere (elsewhere_store _ _ _ _)
  case pskStep =>
    obtain ⟨-, -, rfl⟩ := hd
    exact slotFrame_of_elsewhere (elsewhere_store _ _ _ _)
  case mixSetfreq | pskCfg =>
    obtain ⟨-, -, -, rfl⟩ := hd
    exact slotFrame_of_elsewhere (elsewhere_of_set _ rfl rfl rfl)
  case srcStart | srcSetcorr | mixNext | mixStep =>
    obtain ⟨-, -, rfl⟩ := hd
    exact slotFrame_of_elsewhere (elsewhere_of_set _ rfl rfl rfl)
  case srcStatus | srcAttach =>
    obtain ⟨-, rfl⟩ := hd
    exact slotFrame_of_elsewhere (elsewhere_of_set _ rfl rfl rfl)
  case mixGetstate | cicGetcfg | pskGetstate =>
    obtain ⟨-, rfl⟩ := hd
    exact slotFrame_of_elsewhere (elsewhere_of_same rfl rfl rfl)

theorem slotFrame_of_exec {i : Instr} {k : BitVec 8} {s t : State} (hi : slotField i = some k)
    (hx : exec i s = .next t) : SlotFrame i k s t := by
  rcases exec_cases hx with ⟨e, -, rfl⟩ | hd
  · exact slotFrame_of_elsewhere (elsewhere_of_same rfl rfl rfl)
  · exact slotFrame_of_done hi hd

/-- Settles O33: a command on a slot that answers keeps its frame. -/
theorem slotCommandsTouchOneSlot : Obligations.SlotCommandsTouchOneSlot := by
  intro i k s t hi hx
  obtain ⟨h, hcontrol, hcache⟩ := slotFrame_of_exec hi hx
  exact ⟨h.length, fun j hj => ⟨h.slot j hj, h.out j hj, h.tap j hj⟩, h.dev, h.evt, h.warn, h.fc, hcontrol, hcache⟩

/-! ### Queues -/

/-- No queue gets a buffer; each loses some of its oldest. -/
def Shrinks (s t : State) : Prop := ∀ k, (t.slot k).src.q <:+ (s.slot k).src.q

section
variable {s t : State}

theorem shrinks_of_quiet (h : QueuesAndDevice.Quiet s t) : Shrinks s t := h.queue

theorem shrinks_of_slots_eq (h : t.slots = s.slots) : Shrinks s t := fun k => by
  rw [State.slot, h, ← State.slot]

theorem Shrinks.freqCommit (h : Shrinks s t) (f u : Int) : Shrinks s (t.freqCommit f u) := fun k => by
  rw [TunerAndAllocator.slot_freqCommit, QueuesAndDevice.src_reprogram]
  exact h k

theorem shrinks_resetCore (s : State) : Shrinks s s.resetCore := fun k => by
  rw [TunerAndAllocator.slot_resetCore]
  exact List.nil_suffix

theorem shrinks_grant (s : State) (r : BitVec 16) (freq : BitVec 64) (bw pass stop : Word) (g : Grant) :
    Shrinks s (s.grant r freq bw pass stop g) := by
  have hclaimed := shrinks_of_quiet (QueuesAndDevice.quiet_claimed s r freq bw pass stop g)
  cases htuned : g.tuned with
  | none => rwa [TunerAndAllocator.grant_of_no_retune htuned]
  | some u =>
    rw [TunerAndAllocator.grant_of_retune htuned]
    exact hclaimed.freqCommit _ _

/-- Only a feed enqueues. -/
theorem shrinks_of_done {i : Instr} (hfeed : ∀ x, i ≠ .srcFeed x) (hd : Done i s t) : Shrinks s t := by
  by_cases hi : slotField i = none
  case neg => exact shrinks_of_quiet (QueuesAndDevice.quiet_of_done_slot hi hd)
  cases i <;> simp only [slotField, reduceCtorEq] at hi
  case srcFeed x => exact absurd rfl (hfeed x)
  case sysReset =>
    obtain rfl := hd
    exact shrinks_resetCore s
  case fcSetfreq f =>
    obtain ⟨-, -, u, -, rfl⟩ := hd
    exact (shrinks_of_slots_eq rfl).freqCommit _ _
  case fcSetppm ppm =>
    obtain ⟨-, ⟨-, rfl⟩ | ⟨-, u, -, rfl⟩⟩ := hd
    · exact shrinks_of_slots_eq rfl
    · exact (shrinks_of_slots_eq (t := { s with fc := { s.fc with ppm := ppm } }) rfl).freqCommit _ _
  case allocGetsource r freq bw pass stop =>
    obtain ⟨g, -, rfl⟩ := hd
    exact shrinks_grant s r freq bw pass stop g
  case allocRelease freq =>
    obtain ⟨-, rfl⟩ | ⟨e, -, -, rfl⟩ := hd
    · exact shrinks_of_slots_eq rfl
    · exact shrinks_of_quiet ((QueuesAndDevice.quiet_release s _).answering _)
  case fcSetbounds =>
    obtain ⟨-, -, -, -, -, rfl⟩ := hd
    exact shrinks_of_slots_eq rfl
  case fcSetusable =>
    obtain ⟨-, -, -, rfl⟩ := hd
    exact shrinks_of_slots_eq rfl
  case fcSetrate =>
    obtain ⟨-, -, rfl⟩ := hd
    exact shrinks_of_slots_eq rfl
  case fcSetblackout | fcListen =>
    obtain ⟨-, rfl⟩ := hd
    exact shrinks_of_slots_eq rfl
  case sysNop | sysStatus | sysInfo | fcGetfreq | fcGetrate | fcGetstate | allocQuery =>
    obtain rfl := hd
    exact shrinks_of_slots_eq rfl

/-- A feed appends its buffer to a RUNNING slot's queue, one buffer short if it was full (45_src.md R307). -/
theorem queue_feedSlot (qcap : Nat) (x : List C32) (sl : Slot) : ∃ (gone : Nat) (new : List (List C32)),
    (feedSlot qcap x sl).src.q = sl.src.q.drop gone ++ new ∧ (new = [] ∨ new = [x]) := by
  unfold feedSlot
  split
  · split
    · exact ⟨1, [x], by rw [List.drop_one]; rfl, .inr rfl⟩
    · exact ⟨0, [x], rfl, .inr rfl⟩
  · exact ⟨0, [], (List.append_nil _).symm, .inl rfl⟩

end

/-- Settles O31: every command but the feed shrinks queues, and the feed appends to what is left of them. -/
theorem queuesAreFirstInFirstOut : Obligations.QueuesAreFirstInFirstOut := by
  intro i s t hx k
  have hshrinks (h : Shrinks s t) : ∃ (gone : Nat) (new : List (List C32)),
      (t.slot k).src.q = (s.slot k).src.q.drop gone ++ new ∧ (new = [] ∨ ∃ x, i = .srcFeed x ∧ new = [x]) :=
    ⟨_, [], by rw [List.append_nil]; exact List.suffix_iff_eq_drop.mp (h k), .inl rfl⟩
  rcases exec_cases hx with ⟨e, -, rfl⟩ | hd
  · exact hshrinks (shrinks_of_slots_eq rfl)
  by_cases hfeed : ∀ x, i ≠ .srcFeed x
  · exact hshrinks (shrinks_of_done hfeed hd)
  · push Not at hfeed
    obtain ⟨x, rfl⟩ := hfeed
    obtain ⟨-, -, rfl⟩ := hd
    obtain ⟨gone, new, hq, hnew⟩ := queue_feedSlot s.cfg.qcap x (s.slot k)
    refine ⟨gone, new, ?_, hnew.imp_right fun h => ⟨x, rfl, h⟩⟩
    rw [← hq, ← TunerAndAllocator.slot_map_slots s (f := feedSlot s.cfg.qcap x) rfl]
    rfl

/-! ### The tap cache -/

/-- The cache is as it was, or has one entry more, of legal taps and of an output rate that no entry had. -/
def CacheGrows (s t : State) : Prop :=
  t.cache = s.cache ∨
    ∃ e, t.cache = s.cache ++ [e] ∧ legalTaps s.cfg.tapsMax e.taps = true ∧
      ∀ e' ∈ s.cache, e'.num.toNat * e.den.toNat ≠ e.num.toNat * e'.den.toNat

/-- Construction inserts only on a miss, and only what the design gave (41_cic.md R164, R165). -/
theorem cacheGrows_of_construct {s t : State} {rate : Word} {r : BitVec 16} {pass stop : Word} {p : Plan}
    (hp : cicConstruct s rate r pass stop = .ok p) (ht : t.cache = cacheAfter s rate r p) : CacheGrows s t := by
  rw [CacheGrows, ht]
  unfold cacheAfter cacheInsert
  obtain ⟨-, ⟨hhit, -⟩ | ⟨hhit, hmiss, hdesign⟩⟩ := cicConstruct_ok hp
  · rw [if_pos hhit]
    exact .inl rfl
  rw [if_neg (by simp [hhit])]
  split
  · obtain ⟨-, -, hlegal⟩ := design_eq_some hdesign
    exact .inr ⟨⟨rate, r, p.taps⟩, rfl, hlegal, by simpa [cacheFind] using hmiss⟩
  · exact .inl rfl

theorem cache_freqCommit_grant {s : State} (r : BitVec 16) (freq : BitVec 64) (bw pass stop : Word) (g : Grant) :
    (s.grant r freq bw pass stop g).cache = cacheAfter s s.fc.rate r g.plan := by
  unfold State.grant
  cases g.tuned <;> rfl

theorem cacheGrows_of_done_control {i : Instr} {s t : State} (hi : slotField i = none) (hreset : i ≠ .sysReset)
    (hd : Done i s t) : CacheGrows s t := by
  cases i <;> simp only [slotField, reduceCtorEq] at hi
  case sysReset => exact absurd rfl hreset
  case allocGetsource r freq bw pass stop =>
    obtain ⟨g, hg, rfl⟩ := hd
    obtain ⟨-, -, -, -, -, -, -, hplan⟩ := allocate_ok hg
    exact cacheGrows_of_construct hplan (cache_freqCommit_grant r freq bw pass stop g)
  case fcSetfreq =>
    obtain ⟨-, -, u, -, rfl⟩ := hd
    exact .inl rfl
  case fcSetppm =>
    obtain ⟨-, ⟨-, rfl⟩ | ⟨-, u, -, rfl⟩⟩ := hd <;> exact .inl rfl
  case allocRelease =>
    obtain ⟨-, rfl⟩ | ⟨e, -, -, rfl⟩ := hd <;> exact .inl rfl
  case fcSetbounds =>
    obtain ⟨-, -, -, -, -, rfl⟩ := hd
    exact .inl rfl
  case fcSetusable =>
    obtain ⟨-, -, -, rfl⟩ := hd
    exact .inl rfl
  case fcSetrate | srcFeed =>
    obtain ⟨-, -, rfl⟩ := hd
    exact .inl rfl
  case fcSetblackout | fcListen =>
    obtain ⟨-, rfl⟩ := hd
    exact .inl rfl
  case sysNop | sysStatus | sysInfo | fcGetfreq | fcGetrate | fcGetstate | allocQuery =>
    obtain rfl := hd
    exact .inl rfl

theorem cacheGrows_of_done_slot {i : Instr} {k : BitVec 8} {s t : State} (hi : slotField i = some k)
    (hd : Done i s t) : CacheGrows s t := by
  by_cases hcfg : ∀ r rate pass stop, i ≠ .cicCfg k r rate pass stop
  · obtain ⟨-, -, hcache⟩ := slotFrame_of_done hi hd
    exact .inl (hcache hcfg)
  · push Not at hcfg
    obtain ⟨r, rate, pass, stop, rfl⟩ := hcfg
    obtain ⟨-, -, p, hp, rfl⟩ := hd
    exact cacheGrows_of_construct hp rfl

/-- Settles O44: two commands construct, the others but the reset leave the cache. -/
theorem cacheIsEvictionFree : Obligations.CacheIsEvictionFree := by
  intro i s t hreset hx
  rcases exec_cases hx with ⟨e, -, rfl⟩ | hd
  · exact .inl rfl
  cases hi : slotField i with
  | none => exact cacheGrows_of_done_control hi hreset hd
  | some k => exact cacheGrows_of_done_slot hi hd

/-! ### Ports -/

section
variable {α : Type}

theorem prefixes_refl (ls : List (List α)) : List.Forall₂ (· <+: ·) ls ls :=
  List.forall₂_same.mpr fun _ _ => List.prefix_rfl

theorem prefixes_trans {as bs cs : List (List α)} (hab : List.Forall₂ (· <+: ·) as bs)
    (hbc : List.Forall₂ (· <+: ·) bs cs) : List.Forall₂ (· <+: ·) as cs := by
  induction hab generalizing cs with
  | nil =>
    cases hbc
    exact .nil
  | cons h _ ih =>
    cases hbc with
    | cons h' hrest => exact .cons (h.trans h') (ih hrest)

theorem prefixes_mapIdx {f : Nat → List α → List α} (hf : ∀ n l, l <+: f n l) (ls : List (List α)) :
    List.Forall₂ (· <+: ·) ls (ls.mapIdx f) := by
  induction ls generalizing f with
  | nil => exact .nil
  | cons l ls ih =>
    rw [List.mapIdx_cons]
    exact .cons (hf 0 l) (ih fun n => hf (n + 1))

theorem prefixes_modify (k : Nat) (new : List α) (ls : List (List α)) :
    List.Forall₂ (· <+: ·) ls (ls.modify k (· ++ new)) := by
  induction ls generalizing k with
  | nil => simp
  | cons l ls ih =>
    cases k with
    | zero => exact .cons (List.prefix_append l new) (prefixes_refl ls)
    | succ k => exact .cons List.prefix_rfl (ih k)

end

section
variable {s t u : State}

theorem portsExtend_of_eq (h : t.ports = s.ports) : PortsExtend s t := by
  rw [PortsExtend, h]
  exact ⟨List.prefix_rfl, List.prefix_rfl, prefixes_refl _, prefixes_refl _, prefixes_refl _⟩

theorem portsExtend_trans (h : PortsExtend s t) (h' : PortsExtend t u) : PortsExtend s u := by
  obtain ⟨hdev, hwarn, hevt, hout, htap⟩ := h
  obtain ⟨hdev', hwarn', hevt', hout', htap'⟩ := h'
  exact ⟨hdev.trans hdev', hwarn.trans hwarn', prefixes_trans hevt hevt', prefixes_trans hout hout',
    prefixes_trans htap htap'⟩

theorem portsExtend_emitDev (s : State) (item : DevItem) : PortsExtend s (s.emitDev item) :=
  ⟨List.prefix_append _ _, List.prefix_rfl, prefixes_refl _, prefixes_refl _, prefixes_refl _⟩

theorem portsExtend_emitWarn (s : State) (ks : List (BitVec 8)) : PortsExtend s (s.emitWarn ks) :=
  ⟨List.prefix_rfl, List.prefix_append _ _, prefixes_refl _, prefixes_refl _, prefixes_refl _⟩

theorem portsExtend_store (s : State) (k : Nat) (w : Work) : PortsExtend s (s.store k w) :=
  ⟨List.prefix_rfl, List.prefix_rfl, prefixes_refl _, prefixes_modify _ _ _, prefixes_modify _ _ _⟩

theorem portsExtend_freqCommit (s : State) (f v : Int) : PortsExtend s (s.freqCommit f v) := by
  refine ⟨List.prefix_append _ _, List.prefix_rfl, prefixes_mapIdx (fun l log => ?_) _, prefixes_refl _,
    prefixes_refl _⟩
  dsimp only
  split
  · exact List.prefix_append _ _
  · exact List.prefix_rfl

theorem portsExtend_grant (s : State) (r : BitVec 16) (freq : BitVec 64) (bw pass stop : Word) (g : Grant) :
    PortsExtend s (s.grant r freq bw pass stop g) := by
  have hclaimed : PortsExtend s (TunerAndAllocator.claimed s r freq bw pass stop g) := portsExtend_of_eq rfl
  cases htuned : g.tuned with
  | none => rwa [TunerAndAllocator.grant_of_no_retune htuned]
  | some v =>
    rw [TunerAndAllocator.grant_of_retune htuned]
    exact portsExtend_trans hclaimed (portsExtend_freqCommit _ _ _)

theorem portsExtend_of_done_slot {i : Instr} (hi : slotField i ≠ none) (hd : Done i s t) : PortsExtend s t := by
  cases i <;> simp only [slotField, ne_eq, not_true_eq_false, reduceCtorEq] at hi
  case srcDrain | cicPush | cicPushblk | pskStepblk =>
    obtain ⟨-, -, w, -, rfl⟩ := hd
    exact portsExtend_store s _ w
  case pskStep =>
    obtain ⟨-, -, rfl⟩ := hd
    exact portsExtend_store s _ _
  case cicCfg =>
    obtain ⟨-, -, p, -, rfl⟩ := hd
    exact portsExtend_of_eq rfl
  case mixSetfreq | pskCfg =>
    obtain ⟨-, -, -, rfl⟩ := hd
    exact portsExtend_of_eq rfl
  case srcStart | srcStop | srcSetcorr | mixNext | mixStep =>
    obtain ⟨-, -, rfl⟩ := hd
    exact portsExtend_of_eq rfl
  case srcStatus | srcAttach | mixGetstate | cicGetcfg | pskGetstate =>
    obtain ⟨-, rfl⟩ := hd
    exact portsExtend_of_eq rfl

theorem portsExtend_of_done_control {i : Instr} (hi : slotField i = none) (hd : Done i s t) : PortsExtend s t := by
  cases i <;> simp only [slotField, reduceCtorEq] at hi
  case fcSetfreq =>
    obtain ⟨-, -, u, -, rfl⟩ := hd
    exact portsExtend_freqCommit s _ u
  case fcSetppm ppm =>
    obtain ⟨-, ⟨-, rfl⟩ | ⟨-, u, -, rfl⟩⟩ := hd
    · exact portsExtend_of_eq rfl
    · exact portsExtend_freqCommit { s with fc := { s.fc with ppm := ppm } } _ u
  case fcSetrate =>
    obtain ⟨-, -, rfl⟩ := hd
    exact portsExtend_emitDev s _
  case srcFeed =>
    obtain ⟨-, -, rfl⟩ := hd
    exact portsExtend_emitWarn s _
  case allocGetsource r freq bw pass stop =>
    obtain ⟨g, -, rfl⟩ := hd
    exact portsExtend_grant s r freq bw pass stop g
  case allocRelease =>
    obtain ⟨-, rfl⟩ | ⟨e, -, -, rfl⟩ := hd <;> exact portsExtend_of_eq rfl
  case fcSetbounds =>
    obtain ⟨-, -, -, -, -, rfl⟩ := hd
    exact portsExtend_of_eq rfl
  case fcSetusable =>
    obtain ⟨-, -, -, rfl⟩ := hd
    exact portsExtend_of_eq rfl
  case fcSetblackout | fcListen =>
    obtain ⟨-, rfl⟩ := hd
    exact portsExtend_of_eq rfl
  case sysNop | sysReset | sysStatus | sysInfo | fcGetfreq | fcGetrate | fcGetstate | allocQuery =>
    obtain rfl := hd
    exact portsExtend_of_eq rfl

theorem portsExtend_of_exec {i : Instr} (hx : exec i s = .next t) : PortsExtend s t := by
  rcases exec_cases hx with ⟨e, -, rfl⟩ | hd
  · exact portsExtend_of_eq rfl
  by_cases hi : slotField i = none
  · exact portsExtend_of_done_control hi hd
  · exact portsExtend_of_done_slot hi hd

end

/-- Settles O59: the ports extend those the step began with, through the command it executes. -/
theorem portsOnlyGrow : Obligations.PortsOnlyGrow := fun s _ =>
  Stepping.step_keeps (P := PortsExtend s) (fun _ _ h => h) (fun _ _ _ h => h)
    (fun _ _ _ h hx => portsExtend_trans h (portsExtend_of_exec hx)) (portsExtend_of_eq rfl)

end Sys2Proof.Proofs.Frames
end

section
/-! PROOF. Every command is answered once, and the tests on the slot and on the lock come first (60_exceptions.md R340,
R341, R344, R346, R355). -/

namespace Sys2Proof.Proofs.Answers

open Sys2Proof.Machine

/-! ### Tests that come first -/

section
variable {k : BitVec 8} {s : State} (hk : s.cfg.nsrc ≤ k.toNat) (h : Word)
include hk

theorem withStandalone_missing (body : Slot → Result) : withStandalone h k s body = .next (s.raise h .slot) :=
  withSlot_missing hk h _

theorem withSource_missing (p : SrcState → Bool) (body : Slot → Result) :
    withSource h k s p body = .next (s.raise h .slot) :=
  withSlot_missing hk h _

end

/-- Settles O10: each of these commands begins with the test of its slot number. -/
theorem missingSlotIsRefusedFirst : Obligations.MissingSlotIsRefusedFirst := by
  intro i k s hi hk
  cases i <;> simp only [slotField, reduceCtorEq, Option.some.injEq] at hi <;> subst hi <;> simp only [exec]
  case srcStart | srcStop | srcDrain | srcSetcorr => exact withSource_missing hk _ _ _
  case mixSetfreq | mixNext | mixStep | cicCfg | cicPush | cicPushblk | pskStep | pskStepblk =>
    exact withStandalone_missing hk _ _
  case srcStatus | srcAttach | mixGetstate | cicGetcfg | pskCfg | pskGetstate => exact withSlot_missing hk _ _

/-- Settles O11: each standalone command tests the slot for a live source before its operands. -/
theorem liveSlotRefusesStandaloneCommands : Obligations.LiveSlotRefusesStandaloneCommands := by
  intro i k s hi hfield hk hlive
  rw [← live_iff] at hlive
  cases i <;> simp only [standalone, Bool.false_eq_true] at hi
  all_goals
    obtain rfl := Option.some.inj hfield
    simp only [exec]
    exact withStandalone_of_live hk hlive _ _

/-- The five setters test the lock first (43_fc.md R240). -/
theorem exec_of_locked {i : Instr} {s : State} (hlock : s.fc.locked = true) (hi : refusedWhileLocked i = true) :
    exec i s = .next (s.raise i.header .locked) := by
  cases i <;> simp only [refusedWhileLocked, Bool.false_eq_true] at hi
  all_goals exact if_pos hlock

/-! ### The one answer of a command -/

/-- The command has succeeded: the number of results of its row, and the fields that no success writes. -/
def Answered (i : Instr) (s t : State) : Prop :=
  (∃ results : List Word, results.length = resultCount i ∧
    t.resp = s.resp ++ [BitVec.ofNat 32 (256 * resultCount i) :: results]) ∧
  t.cfg = s.cfg ∧ t.cmd = s.cmd ∧ (i ≠ .sysStatus → i ≠ .sysReset → t.err = s.err)

section
variable {i : Instr} {s t u : State} {rs : List Word}

theorem answered_of_err (ht : t = u.answering rs) (hlen : rs.length = resultCount i)
    (herr : i ≠ .sysStatus → i ≠ .sysReset → u.err = s.err) (hresp : u.resp = s.resp := by rfl)
    (hcfg : u.cfg = s.cfg := by rfl) (hcmd : u.cmd = s.cmd := by rfl) : Answered i s t := by
  subst ht
  exact ⟨⟨rs, hlen, by rw [answering_resp, hresp, hlen]⟩, hcfg, hcmd, herr⟩

theorem answered (ht : t = u.answering rs) (hlen : rs.length = resultCount i := by rfl)
    (herr : u.err = s.err := by rfl) (hresp : u.resp = s.resp := by rfl) (hcfg : u.cfg = s.cfg := by rfl)
    (hcmd : u.cmd = s.cmd := by rfl) : Answered i s t :=
  answered_of_err ht hlen (fun _ _ => herr) hresp hcfg hcmd

theorem length_stepResults (e : Option SymbolEvent) : (stepResults e).length = 3 := by
  cases e <;> rfl

/-- A grant answers nothing and writes no error register by itself. -/
theorem grant_bookkeeping (s : State) (r : BitVec 16) (freq : BitVec 64) (bw pass stop : Word) (g : Grant) :
    (s.grant r freq bw pass stop g).err = s.err ∧ (s.grant r freq bw pass stop g).resp = s.resp ∧
      (s.grant r freq bw pass stop g).cfg = s.cfg ∧ (s.grant r freq bw pass stop g).cmd = s.cmd := by
  unfold State.grant
  cases g.tuned <;> exact ⟨rfl, rfl, rfl, rfl⟩

theorem answered_of_done_control (hi : slotField i = none) (hd : Done i s t) : Answered i s t := by
  cases i <;> simp only [slotField, reduceCtorEq] at hi
  case sysReset => exact answered_of_err hd rfl fun _ hne => absurd rfl hne
  case sysStatus => exact answered_of_err hd rfl fun hne _ => absurd rfl hne
  case sysNop | sysInfo | fcGetfreq | fcGetrate | fcGetstate => exact answered hd
  case allocQuery index =>
    refine answered hd ?_
    cases s.active[index.toNat]? <;> rfl
  case fcSetfreq =>
    obtain ⟨-, -, v, -, ht⟩ := hd
    exact answered ht
  case fcSetppm =>
    obtain ⟨-, ⟨-, ht⟩ | ⟨-, v, -, ht⟩⟩ := hd <;> exact answered ht
  case allocGetsource r freq bw pass stop =>
    obtain ⟨g, -, ht⟩ := hd
    obtain ⟨herr, hresp, hcfg, hcmd⟩ := grant_bookkeeping s r freq bw pass stop g
    exact answered ht rfl herr hresp hcfg hcmd
  case allocRelease =>
    obtain ⟨-, ht⟩ | ⟨e, -, -, ht⟩ := hd <;> exact answered ht
  case fcSetbounds =>
    obtain ⟨-, -, -, -, -, ht⟩ := hd
    exact answered ht
  case fcSetusable =>
    obtain ⟨-, -, -, ht⟩ := hd
    exact answered ht
  case fcSetrate | srcFeed =>
    obtain ⟨-, -, ht⟩ := hd
    exact answered ht
  case fcSetblackout | fcListen =>
    obtain ⟨-, ht⟩ := hd
    exact answered ht

theorem answered_of_done_slot (hi : slotField i ≠ none) (hd : Done i s t) : Answered i s t := by
  cases i <;> simp only [slotField, ne_eq, not_true_eq_false, reduceCtorEq] at hi
  case srcDrain | cicPush | cicPushblk | pskStepblk =>
    obtain ⟨-, -, w, -, ht⟩ := hd
    exact answered ht
  case pskStep =>
    obtain ⟨-, -, ht⟩ := hd
    exact answered ht (length_stepResults _)
  case cicCfg =>
    obtain ⟨-, -, p, -, ht⟩ := hd
    exact answered ht
  case mixSetfreq | pskCfg =>
    obtain ⟨-, -, -, ht⟩ := hd
    exact answered ht
  case srcStart | srcStop | srcSetcorr | mixNext | mixStep =>
    obtain ⟨-, -, ht⟩ := hd
    exact answered ht
  case srcStatus | srcAttach | mixGetstate | cicGetcfg | pskGetstate =>
    obtain ⟨-, ht⟩ := hd
    exact answered ht

theorem answered_of_done (hd : Done i s t) : Answered i s t := by
  by_cases hi : slotField i = none
  · exact answered_of_done_control hi hd
  · exact answered_of_done_slot hi hd

end

/-- Settles O8: error entry as it is written, the codes, and one of the two answers for every command. -/
theorem everyCommandSucceedsOrFailsPrecisely : Obligations.EveryCommandSucceedsOrFailsPrecisely := by
  refine ⟨fun s h e => ?_, rfl, fun i s => ⟨after i s, Stepping.exec_eq_after i s, ?_⟩⟩
  · rw [raise_eq, satInc_eq]
  · exact (exec_cases (Stepping.exec_eq_after i s)).imp_right answered_of_done

/-! ### The lock -/

/-- All registers of the controller that the lock protects are the same, the frequency apart. -/
structure TunerKept (s t : State) : Prop where
  rate : t.fc.rate = s.fc.rate
  min : t.fc.min = s.fc.min
  max : t.fc.max = s.fc.max
  blackout : t.fc.blackout = s.fc.blackout
  ufNum : t.fc.ufNum = s.fc.ufNum
  ufDen : t.fc.ufDen = s.fc.ufDen

section
variable {i : Instr} {s t : State}

theorem tunerKept_of_fc_eq (h : t.fc = { s.fc with locked := t.fc.locked }) : TunerKept s t := by
  constructor <;> rw [h]

theorem tunerKept_grant (r : BitVec 16) (freq : BitVec 64) (bw pass stop : Word) (g : Grant) :
    TunerKept s (s.grant r freq bw pass stop g) := by
  unfold State.grant
  cases g.tuned <;> exact ⟨rfl, rfl, rfl, rfl, rfl, rfl⟩

/-- While locked, the commands that pass the lock test leave the tuner, `ALLOC.GETSOURCE` its frequency apart. -/
theorem tuner_of_done (hlock : s.fc.locked = true) (hreset : i ≠ .sysReset) (hd : Done i s t) :
    TunerKept s t ∧ ((∀ r freq bw pass stop, i ≠ .allocGetsource r freq bw pass stop) → t.fc.freq = s.fc.freq) := by
  cases hi : slotField i with
  | some k =>
    obtain ⟨helse, -, -⟩ := Frames.slotFrame_of_done hi hd
    exact ⟨tunerKept_of_fc_eq helse.fc, fun _ => by rw [helse.fc]⟩
  | none =>
    cases i <;> simp only [slotField, reduceCtorEq] at hi
    case sysReset => exact absurd rfl hreset
    case fcSetfreq | fcSetrate | fcSetbounds | fcSetblackout | fcSetusable =>
      obtain ⟨hunlocked, -⟩ := hd
      exact absurd (hlock.symm.trans hunlocked) (by decide)
    case fcSetppm =>
      obtain ⟨-, ⟨-, rfl⟩ | ⟨-, u, -, rfl⟩⟩ := hd
      · exact ⟨⟨rfl, rfl, rfl, rfl, rfl, rfl⟩, fun _ => rfl⟩
      · exact ⟨⟨rfl, rfl, rfl, rfl, rfl, rfl⟩, fun _ => s64_toInt _⟩
    case fcListen =>
      obtain ⟨-, rfl⟩ := hd
      exact ⟨⟨rfl, rfl, rfl, rfl, rfl, rfl⟩, fun _ => rfl⟩
    case allocGetsource r freq bw pass stop =>
      obtain ⟨g, -, rfl⟩ := hd
      obtain ⟨hrate, hmin, hmax, hblackout, hnum, hden⟩ := tunerKept_grant (s := s) r freq bw pass stop g
      exact ⟨⟨hrate, hmin, hmax, hblackout, hnum, hden⟩, fun hne => absurd rfl (hne r freq bw pass stop)⟩
    case allocRelease =>
      obtain ⟨-, rfl⟩ | ⟨e, -, -, rfl⟩ := hd <;> exact ⟨tunerKept_of_fc_eq rfl, fun _ => rfl⟩
    case srcFeed =>
      obtain ⟨-, -, rfl⟩ := hd
      exact ⟨tunerKept_of_fc_eq rfl, fun _ => rfl⟩
    case sysNop | sysStatus | sysInfo | fcGetfreq | fcGetrate | fcGetstate | allocQuery =>
      obtain rfl := hd
      exact ⟨tunerKept_of_fc_eq rfl, fun _ => rfl⟩

/-- What changes the lock: an allocation sets it, and what clears it leaves no active channel. -/
def LockMoves (i : Instr) (s t : State) : Prop :=
  t.fc.locked ≠ s.fc.locked →
    (t.fc.locked = true ∧ ∃ r freq bw pass stop, i = .allocGetsource r freq bw pass stop) ∨
    (t.fc.locked = false ∧ t.active = [] ∧
      (i = .sysReset ∨ (∃ freq, i = .allocRelease freq) ∨ ∃ k, i = .srcStop k))

theorem lockMoves_of_eq (h : t.fc.locked = s.fc.locked) : LockMoves i s t := fun hne => absurd h hne

/-- A release moves the lock only when it leaves the set empty (44_alloc.md R287). -/
theorem lockMoves_release {k : Nat} {rs : List Word} (hi : (∃ freq, i = .allocRelease freq) ∨ ∃ k, i = .srcStop k) :
    LockMoves i s ((s.release k).answering rs) := by
  intro hne
  by_cases hempty : (s.active.filter fun c => c.slot.toNat ≠ k).isEmpty = true
  · exact .inr ⟨if_pos hempty, List.isEmpty_iff.mp hempty, .inr hi⟩
  · exact absurd (if_neg hempty) hne

theorem lockMoves_of_done (hd : Done i s t) : LockMoves i s t := by
  cases hi : slotField i with
  | some k =>
    by_cases hstop : i = .srcStop k
    · subst hstop
      obtain ⟨-, -, rfl⟩ := hd
      exact lockMoves_release (.inr ⟨k, rfl⟩)
    · obtain ⟨-, hcontrol, -⟩ := Frames.slotFrame_of_done hi hd
      obtain ⟨hfc, -⟩ := hcontrol hstop
      exact lockMoves_of_eq (by rw [hfc])
  | none =>
    cases i <;> simp only [slotField, reduceCtorEq] at hi
    case sysReset =>
      obtain rfl := hd
      exact fun _ => .inr ⟨rfl, rfl, .inl rfl⟩
    case allocGetsource r freq bw pass stop =>
      obtain ⟨g, -, rfl⟩ := hd
      refine fun _ => .inl ⟨?_, r, freq, bw, pass, stop, rfl⟩
      rw [answering_fc, State.grant]
      cases g.tuned <;> rfl
    case allocRelease freq =>
      obtain ⟨-, rfl⟩ | ⟨e, -, -, rfl⟩ := hd
      · exact lockMoves_of_eq rfl
      · exact lockMoves_release (.inl ⟨freq, rfl⟩)
    case fcSetfreq =>
      obtain ⟨-, -, u, -, rfl⟩ := hd
      exact lockMoves_of_eq rfl
    case fcSetppm =>
      obtain ⟨-, ⟨-, rfl⟩ | ⟨-, u, -, rfl⟩⟩ := hd <;> exact lockMoves_of_eq rfl
    case fcSetbounds =>
      obtain ⟨-, -, -, -, -, rfl⟩ := hd
      exact lockMoves_of_eq rfl
    case fcSetusable =>
      obtain ⟨-, -, -, rfl⟩ := hd
      exact lockMoves_of_eq rfl
    case fcSetrate | srcFeed =>
      obtain ⟨-, -, rfl⟩ := hd
      exact lockMoves_of_eq rfl
    case fcSetblackout | fcListen =>
      obtain ⟨-, rfl⟩ := hd
      exact lockMoves_of_eq rfl
    case sysNop | sysStatus | sysInfo | fcGetfreq | fcGetrate | fcGetstate | allocQuery =>
      obtain rfl := hd
      exact lockMoves_of_eq rfl

end

/-- Settles O9: the setters refuse, what passes leaves the tuner, and the lock moves with the active set. -/
theorem lockGuardsTheTuner : Obligations.LockGuardsTheTuner := by
  refine ⟨fun i s => exec_of_locked, fun i s t hlock hx hreset => ?_, fun i s t hx => ?_⟩
  · rcases exec_cases hx with ⟨e, -, rfl⟩ | hd
    · exact ⟨rfl, rfl, rfl, rfl, rfl, rfl, fun _ => rfl⟩
    · obtain ⟨⟨hrate, hmin, hmax, hblackout, hnum, hden⟩, hfreq⟩ := tuner_of_done hlock hreset hd
      exact ⟨hrate, hmin, hmax, hblackout, hnum, hden, hfreq⟩
  · rcases exec_cases hx with ⟨e, -, rfl⟩ | hd
    · exact fun hne => absurd rfl hne
    · exact lockMoves_of_done hd

end Sys2Proof.Proofs.Answers
end

section
/-! PROOF. Reset: every register at its value, and every invariant from the start (10_state.md R70; 46_sys.md R332;
70_reset_and_hazards.md R380 to R382). -/

namespace Sys2Proof.Proofs.ResetState

open Sys2Proof.Machine

theorem slot_resetWith (c : Config) (k : Nat) : (State.resetWith c).slot k = Slot.reset := by
  rcases slot_mem_or_reset (State.resetWith c) k with hmem | heq
  · exact List.eq_of_mem_replicate hmem
  · exact heq

theorem slots_resetWith {c : Config} {sl : Slot} (h : sl ∈ (State.resetWith c).slots) : sl = Slot.reset :=
  List.eq_of_mem_replicate h

/-- Settles O13: the reset values are those of the tables. -/
theorem resetValuesOfEveryRegister : Obligations.ResetValuesOfEveryRegister := by
  refine fun c => ⟨rfl, rfl, rfl, rfl, List.length_replicate, fun k _ => ?_⟩
  rw [slot_resetWith]
  rfl

/-- Settles O14: the reset command answers with no results from the reset state. -/
theorem sysResetGivesResetState : Obligations.SysResetGivesResetState :=
  fun s => ⟨rfl, TunerRegisters.succeed_nil s.resetCore⟩

theorem coreInv_resetWith {c : Config} (h : c.Legal) : CoreInv (State.resetWith c) := by
  obtain ⟨-, -, -, -, -, -, -, -, -, hscale, -⟩ := id h
  have hvacant : TunerAndAllocator.Vacant (State.resetWith c) := ⟨rfl, rfl, fun k _ => by rw [slot_resetWith]; rfl⟩
  refine TunerAndAllocator.coreInv_of_vacant hvacant
    ⟨h, List.length_replicate, List.length_replicate, List.length_replicate, List.length_replicate, ?_,
      (by decide : Fc.reset.ufDen ≠ 0), (by decide : Fc.reset.ufNum.toNat ≤ Fc.reset.ufDen.toNat), Nat.zero_le _⟩ ?_ ?_
  · exact Nat.two_pow_pos c.nlisten
  · show 0 < 1000000 * (c.ppmScale : Int) + 0
    omega
  · exact fun hvalid => absurd hvalid Bool.false_ne_true

/-- Settles O54: a reset core has no source, no queued buffer, no constructed unit and no frequency. -/
theorem resetMeetsTheInvariants : Obligations.ResetMeetsTheInvariants := by
  refine fun c h => ⟨coreInv_resetWith h, ⟨h, fun sl hsl => ?_⟩, fun hvalid => absurd hvalid Bool.false_ne_true,
    ⟨h, fun sl hsl => ?_⟩, fun sl hsl => ?_⟩
  · rw [slots_resetWith hsl]
    exact QueuesAndDevice.queueOk_nil c
  · rw [slots_resetWith hsl]
    exact DecimatorShapes.cicOk_reset c
  · rw [slots_resetWith hsl]
    exact LoopInvariant.loopOk_reset

end Sys2Proof.Proofs.ResetState
end

section
/-! PROOF. The tuner: nearest integers, the privileged setter, and the commands that run it (43_fc.md R242 to R248;
40_mix.md R133). -/

namespace Sys2Proof.Proofs.Tuning

open Sys2Proof.Machine

/-! ### Nearest integers (00_scope.md section 4) -/

/-- A rounded quotient is within half of the exact one, ties toward plus infinity. -/
theorem rdiv_bounds (a : Int) {b : Int} (hb : 0 < b) :
    2 * a - b < 2 * rdiv a b * b ∧ 2 * rdiv a b * b ≤ 2 * a + b := by
  have hdiv := Int.mul_ediv_add_emod (2 * a + b) (2 * b)
  have hlow := Int.emod_nonneg (2 * a + b) (show 2 * b ≠ 0 by omega)
  have hhigh := Int.emod_lt_of_pos (2 * a + b) (show 0 < 2 * b by omega)
  have hassoc : 2 * rdiv a b * b = 2 * b * ((2 * a + b) / (2 * b)) := by
    rw [rdiv]
    ring
  omega

/-- A whole quotient is not rounded. -/
theorem rdiv_mul_self (f : Int) {b : Int} (hb : 0 < b) : rdiv (f * b) b = f := by
  rw [rdiv, show 2 * (f * b) + b = b + f * (2 * b) by ring, Int.add_mul_ediv_right _ _ (by omega),
    Int.ediv_eq_zero_of_lt hb.le (by omega), zero_add]

/-- Settles O16: both are rounded quotients with a positive divisor. -/
theorem roundedQuotientsAreNearest : Obligations.RoundedQuotientsAreNearest := by
  refine ⟨fun c f ppm hscale hpos => ⟨rdiv_bounds (f * ppmWhole c) hpos, ?_⟩, fun f rate hrate =>
    ⟨_, rfl, rdiv_bounds _ ?_⟩⟩
  · rw [resolve, add_zero]
    exact rdiv_mul_self f (show 0 < 1000000 * (c.ppmScale : Int) by omega)
  · have : rate.toNat ≠ 0 := fun h => hrate (BitVec.eq_of_toNat_eq h)
    omega

/-! ### The privileged setter (43_fc.md R247, R248) -/

/-- A live source's mixer gets the increment of its offset; nothing else of any slot changes. -/
theorem reprogram_eq (fc : Fc) (sl : Slot) :
    reprogram fc sl = if sl.src.state = .idle ∨ sl.src.state = .running then
      { sl with mix := { sl.mix with
          inc := mixInc (fc.freq.toInt - sl.src.chFreq.toInt - sl.src.corr.toInt) fc.rate } }
    else sl := by
  simp only [reprogram, live_iff]

/-- Settles O17: the setter field by field, and its two maps entry by entry. -/
theorem freqCommitTellsAllAndReprograms : Obligations.FreqCommitTellsAllAndReprograms := by
  intro s f t
  simp only [freqCommit_eq, s64_toInt]
  refine ⟨trivial, List.length_mapIdx, fun l log hlog => ?_, List.length_map _, fun k sl hsl => ?_⟩
  · rw [List.getElem?_mapIdx, hlog]
    rfl
  · rw [List.getElem?_map, hsl, Option.map_some, reprogram_eq]

/-! ### The range test -/

section
variable {s : State} {f ppm : Int}

theorem freqCheck_of_outside (h : resolve s.cfg f ppm < s.fc.min.toInt ∨ s.fc.max.toInt < resolve s.cfg f ppm) :
    freqCheck s f ppm = .error .range :=
  if_pos h

theorem freqCheck_of_inside (hmin : s.fc.min.toInt ≤ resolve s.cfg f ppm)
    (hmax : resolve s.cfg f ppm ≤ s.fc.max.toInt) : freqCheck s f ppm = .ok (resolve s.cfg f ppm) :=
  if_neg (by omega)

end

/-! ### FC.SETFREQ (R243) -/

section
variable {s : State} {f : BitVec 64}

theorem exec_fcSetfreq_of_locked (hlock : s.fc.locked = true) :
    exec (.fcSetfreq f) s = .next (s.raise 0x11000000#32 .locked) :=
  if_pos hlock

theorem exec_fcSetfreq_of_illegal (hlock : s.fc.locked = false) (hbad : f.toInt < 0 ∨ 2 ^ 62 - 1 < f.toInt) :
    exec (.fcSetfreq f) s = .next (s.raise 0x11000000#32 .operand) := by
  have hf : legalFreq f = false := by
    rw [← Bool.not_eq_true, legalFreq_iff]
    omega
  exact (if_neg (by simp [hlock])).trans (if_pos hf)

variable (hlock : s.fc.locked = false) (hlow : 0 ≤ f.toInt) (hhigh : f.toInt ≤ 2 ^ 62 - 1)
include hlock hlow hhigh

theorem exec_fcSetfreq_of_legal :
    exec (.fcSetfreq f) s =
      match freqCheck s f.toInt s.fc.ppm.toInt with
      | .error e => .next (s.raise 0x11000000#32 e)
      | .ok t => .next ((s.freqCommit f.toInt t).answering []) := by
  have hf : legalFreq f = true := (legalFreq_iff f).mpr ⟨hlow, hhigh⟩
  change execFcSetfreq f s = _
  rw [execFcSetfreq, if_neg (by simp [hlock]), if_neg (by simp [hf])]
  cases freqCheck s f.toInt s.fc.ppm.toInt with
  | error e => rfl
  | ok t => exact TunerRegisters.succeed_nil _

theorem exec_fcSetfreq_of_outside
    (hout : resolve s.cfg f.toInt s.fc.ppm.toInt < s.fc.min.toInt ∨
      s.fc.max.toInt < resolve s.cfg f.toInt s.fc.ppm.toInt) :
    exec (.fcSetfreq f) s = .next (s.raise 0x11000000#32 .range) := by
  rw [exec_fcSetfreq_of_legal hlock hlow hhigh, freqCheck_of_outside hout]

theorem exec_fcSetfreq_of_inside (hmin : s.fc.min.toInt ≤ resolve s.cfg f.toInt s.fc.ppm.toInt)
    (hmax : resolve s.cfg f.toInt s.fc.ppm.toInt ≤ s.fc.max.toInt) :
    exec (.fcSetfreq f) s =
      .next ((s.freqCommit f.toInt (resolve s.cfg f.toInt s.fc.ppm.toInt)).answering []) := by
  rw [exec_fcSetfreq_of_legal hlock hlow hhigh, freqCheck_of_inside hmin hmax]

end

/-- Settles O18: the record, then the checks in their order. -/
theorem fcSetfreqChecksThenCommits : Obligations.FcSetfreqChecksThenCommits := fun _ _ =>
  ⟨rfl, exec_fcSetfreq_of_locked, exec_fcSetfreq_of_illegal, exec_fcSetfreq_of_outside, exec_fcSetfreq_of_inside⟩

/-! ### FC.SETRATE (R245) -/

section
variable {s : State} {rate : Word}

theorem exec_fcSetrate_of_locked (hlock : s.fc.locked = true) :
    exec (.fcSetrate rate) s = .next (s.raise 0x13000000#32 .locked) :=
  if_pos hlock

theorem exec_fcSetrate_of_zero (hlock : s.fc.locked = false) (hzero : rate = 0) :
    exec (.fcSetrate rate) s = .next (s.raise 0x13000000#32 .operand) :=
  (if_neg (by simp [hlock])).trans (if_pos hzero)

theorem exec_fcSetrate_of_legal (hlock : s.fc.locked = false) (hrate : rate ≠ 0) :
    exec (.fcSetrate rate) s =
      .next ((({ s with fc := { s.fc with rate := rate } } : State).emitDev (.setRate rate)).answering []) := by
  rw [← TunerRegisters.succeed_nil]
  exact (if_neg (by simp [hlock])).trans (if_neg hrate)

end

/-! ### FC.SETPPM (R246) -/

section
variable {s : State} {ppm : Word}

theorem exec_fcSetppm_of_illegal (hbad : ppmWhole s.cfg + ppm.toInt ≤ 0) :
    exec (.fcSetppm ppm) s = .next (s.raise 0x14000000#32 .operand) :=
  if_pos hbad

variable (hpos : 0 < ppmWhole s.cfg + ppm.toInt)
include hpos

/-- With no frequency set there is nothing to correct yet. -/
theorem exec_fcSetppm_of_untuned (hvalid : s.fc.freqValid = false) :
    exec (.fcSetppm ppm) s = .next (({ s with fc := { s.fc with ppm := ppm } } : State).answering []) := by
  rw [← TunerRegisters.succeed_nil]
  exact (if_neg hpos.not_ge).trans (if_neg (by simp [hvalid]))

variable (hvalid : s.fc.freqValid = true)
include hvalid

theorem exec_fcSetppm_of_tuned :
    exec (.fcSetppm ppm) s =
      match freqCheck s s.fc.freq.toInt ppm.toInt with
      | .error e => .next (s.raise 0x14000000#32 e)
      | .ok t => .next ((({ s with fc := { s.fc with ppm := ppm } } : State).freqCommit s.fc.freq.toInt t).answering
          []) := by
  change execFcSetppm ppm s = _
  rw [execFcSetppm, if_neg hpos.not_ge, if_pos hvalid]
  cases freqCheck s s.fc.freq.toInt ppm.toInt with
  | error e => rfl
  | ok t => exact TunerRegisters.succeed_nil _

theorem exec_fcSetppm_of_outside
    (hout : resolve s.cfg s.fc.freq.toInt ppm.toInt < s.fc.min.toInt ∨
      s.fc.max.toInt < resolve s.cfg s.fc.freq.toInt ppm.toInt) :
    exec (.fcSetppm ppm) s = .next (s.raise 0x14000000#32 .range) := by
  rw [exec_fcSetppm_of_tuned hpos hvalid, freqCheck_of_outside hout]

theorem exec_fcSetppm_of_inside (hmin : s.fc.min.toInt ≤ resolve s.cfg s.fc.freq.toInt ppm.toInt)
    (hmax : resolve s.cfg s.fc.freq.toInt ppm.toInt ≤ s.fc.max.toInt) :
    exec (.fcSetppm ppm) s =
      .next ((({ s with fc := { s.fc with ppm := ppm } } : State).freqCommit s.fc.freq.toInt
        (resolve s.cfg s.fc.freq.toInt ppm.toInt)).answering []) := by
  rw [exec_fcSetppm_of_tuned hpos hvalid, freqCheck_of_inside hmin hmax]

end

/-- Settles O19: each record, then the checks in their order. -/
theorem fcSetrateAndSetppmTellTheDevice : Obligations.FcSetrateAndSetppmTellTheDevice :=
  ⟨fun _ _ => ⟨rfl, exec_fcSetrate_of_locked, exec_fcSetrate_of_zero, exec_fcSetrate_of_legal⟩, fun _ _ =>
    ⟨rfl, exec_fcSetppm_of_illegal, exec_fcSetppm_of_untuned, exec_fcSetppm_of_outside, exec_fcSetppm_of_inside⟩⟩

end Sys2Proof.Proofs.Tuning
end

section
/-! PROOF. Placement: each shift clears a channel for good, and what the scan answers is the last of a row of centers
(44_alloc.md R271, R272, R275 to R277). -/

namespace Sys2Proof.Proofs.Placement

open Sys2Proof.Machine

/-! ### Overlap and shift -/

/-- The channel and the blackout zone around the center have a common point (R272). -/
def Overlap (bo : Int) (ch : Channel) (c : Int) : Prop := ch.low ≤ c + bo ∧ c - bo ≤ ch.high

theorem overlaps_iff (bo : Int) (ch : Channel) (c : Int) : overlaps bo ch c = true ↔ Overlap bo ch c :=
  decide_eq_true_iff

theorem inWindow_iff (half : Int) (chs : List Channel) (c : Int) :
    inWindow half chs c = true ↔ ∀ ch ∈ chs, c - half ≤ ch.low ∧ ch.high ≤ c + half := by
  simp [inWindow]

/-- The center `c'` is tried after `c`: it is past the first channel that overlaps the zone around `c` (R275). -/
def Shift (bo : Int) (chs : List Channel) (c c' : Int) : Prop :=
  ∃ before ch after, chs = before ++ ch :: after ∧ (∀ b ∈ before, ¬ Overlap bo b c) ∧ Overlap bo ch c ∧
    c' = ch.high + bo + 1

section
variable {bo c c' : Int} {chs : List Channel}

theorem find?_overlaps_eq_none :
    (chs.find? fun ch => overlaps bo ch c) = none ↔ ∀ ch ∈ chs, ¬ Overlap bo ch c := by
  simp [overlaps_iff]

theorem shift_iff :
    Shift bo chs c c' ↔ ∃ ch, (chs.find? fun ch => overlaps bo ch c) = some ch ∧ c' = ch.high + bo + 1 := by
  simp only [Shift, List.find?_eq_some_iff_append, overlaps_iff, Bool.not_eq_true', ← Bool.not_eq_true]
  constructor
  · rintro ⟨before, ch, after, hsplit, hbefore, hch, hc'⟩
    exact ⟨ch, ⟨hch, before, after, hsplit, hbefore⟩, hc'⟩
  · rintro ⟨ch, ⟨hch, before, after, hsplit, hbefore⟩, hc'⟩
    exact ⟨before, ch, after, hsplit, hbefore, hch, hc'⟩

end

/-! ### The scan, one center at a time -/

section
variable {half bo floor c c' : Int} {chs : List Channel}

theorem placeScan_of_clear (hclear : ∀ ch ∈ chs, ¬ Overlap bo ch c) (left : Nat) :
    placeScan half bo floor chs left c = some c := by
  unfold placeScan
  rw [find?_overlaps_eq_none.mpr hclear]

theorem placeScan_zero_of_shift (h : Shift bo chs c c') : placeScan half bo floor chs 0 c = none := by
  obtain ⟨ch, hfind, -⟩ := shift_iff.mp h
  unfold placeScan
  rw [hfind]

theorem placeScan_succ_of_shift (h : Shift bo chs c c') (left : Nat) :
    placeScan half bo floor chs (left + 1) c =
      if floor < c' - half then none else placeScan half bo floor chs left c' := by
  obtain ⟨ch, hfind, rfl⟩ := shift_iff.mp h
  conv_lhs => unfold placeScan
  rw [hfind]

/-- Either no channel overlaps the zone, or there is a next center. -/
theorem clear_or_shift (bo c : Int) (chs : List Channel) :
    (∀ ch ∈ chs, ¬ Overlap bo ch c) ∨ ∃ c', Shift bo chs c c' := by
  cases hfind : chs.find? fun ch => overlaps bo ch c with
  | none => exact .inl (find?_overlaps_eq_none.mp hfind)
  | some ch => exact .inr ⟨_, shift_iff.mpr ⟨ch, hfind, rfl⟩⟩

end

/-! ### The iteration bound (R277) -/

/-- The channels that the blackout zone around `c`, or around a higher center, can still overlap. -/
def ahead (bo : Int) (chs : List Channel) (c : Int) : Nat := chs.countP fun ch => c - bo ≤ ch.high

/-- A shift moves up, and leaves the channel it went past behind for good. -/
theorem ahead_lt_of_shift {bo c c' : Int} {chs : List Channel} (h : Shift bo chs c c') :
    ahead bo chs c' < ahead bo chs c := by
  obtain ⟨before, ch, after, rfl, -, ⟨-, hover⟩, rfl⟩ := h
  have hmono (l : List Channel) :
      l.countP (fun d => ch.high + bo + 1 - bo ≤ d.high) ≤ l.countP (fun d => c - bo ≤ d.high) :=
    List.countP_mono_left fun d _ hd => by
      simp only [decide_eq_true_eq] at hd ⊢
      omega
  have hpast : ¬ ch.high + bo + 1 - bo ≤ ch.high := by omega
  have hbefore := hmono before
  have hafter := hmono after
  simp only [ahead, List.countP_append, List.countP_cons, decide_eq_true_eq, if_pos hover, if_neg hpast]
  omega

theorem placeScan_of_ahead_le {half bo floor c : Int} {chs : List Channel} {left : Nat} (h : ahead bo chs c ≤ left)
    (more : Nat) : placeScan half bo floor chs (left + more) c = placeScan half bo floor chs left c := by
  induction left generalizing c with
  | zero =>
    rcases clear_or_shift bo c chs with hclear | ⟨c', hshift⟩
    · rw [placeScan_of_clear hclear, placeScan_of_clear hclear]
    · have := ahead_lt_of_shift hshift
      omega
  | succ left ih =>
    rcases clear_or_shift bo c chs with hclear | ⟨c', hshift⟩
    · rw [placeScan_of_clear hclear, placeScan_of_clear hclear]
    · have hless := ahead_lt_of_shift hshift
      rw [Nat.add_right_comm, placeScan_succ_of_shift hshift, placeScan_succ_of_shift hshift, ih (by omega)]

/-- Settles O25: at most every channel is ahead at the start, and each restart leaves one behind. -/
theorem placementNeverExhaustsItsBound : Obligations.PlacementNeverExhaustsItsBound :=
  fun _ _ _ _ _ more => placeScan_of_ahead_le List.countP_le_length more

/-! ### The row of centers tried (R275) -/

/-- A row of centers from `c₀` to `c`, each the next after the one before, none that puts the first channel below its
window, and no channel overlapping the zone around the last. -/
def Tried (half bo floor : Int) (chs : List Channel) (c₀ c : Int) (tried : List Int) : Prop :=
  tried.head? = some c₀ ∧ tried.IsChain (Shift bo chs) ∧ tried.getLast? = some c ∧ (∀ d ∈ tried, d - half ≤ floor) ∧
    ∀ ch ∈ chs, ¬ Overlap bo ch c

section
variable {half bo floor c₀ c : Int} {chs : List Channel}

theorem exists_tried_of_placeScan {left : Nat} (h₀ : c₀ - half ≤ floor)
    (h : placeScan half bo floor chs left c₀ = some c) : ∃ tried, Tried half bo floor chs c₀ c tried := by
  induction left generalizing c₀ with
  | zero =>
    rcases clear_or_shift bo c₀ chs with hclear | ⟨c', hshift⟩
    · rw [placeScan_of_clear hclear] at h
      obtain rfl := Option.some.inj h
      exact ⟨[c₀], rfl, .singleton _, rfl, by simpa using h₀, hclear⟩
    · rw [placeScan_zero_of_shift hshift] at h
      cases h
  | succ left ih =>
    rcases clear_or_shift bo c₀ chs with hclear | ⟨c', hshift⟩
    · rw [placeScan_of_clear hclear] at h
      obtain rfl := Option.some.inj h
      exact ⟨[c₀], rfl, .singleton _, rfl, by simpa using h₀, hclear⟩
    · rw [placeScan_succ_of_shift hshift] at h
      split at h
      · cases h
      · next hfloor =>
        obtain ⟨tried, hhead, hchain, hlast, hlow, hclear⟩ := ih (by omega) h
        obtain ⟨rest, rfl⟩ := List.head?_eq_some_iff.mp hhead
        exact ⟨c₀ :: c' :: rest, rfl, List.isChain_cons_cons.mpr ⟨hshift, hchain⟩, hlast,
          List.forall_mem_cons.mpr ⟨h₀, hlow⟩, hclear⟩

theorem placeScan_of_tried {rest : List Int} (h : Tried half bo floor chs c₀ c (c₀ :: rest)) (more : Nat) :
    placeScan half bo floor chs (rest.length + more) c₀ = some c := by
  induction rest generalizing c₀ with
  | nil =>
    obtain ⟨-, -, hlast, -, hclear⟩ := h
    obtain rfl : c₀ = c := by simpa using hlast
    exact placeScan_of_clear hclear _
  | cons c' rest ih =>
    obtain ⟨-, hchain, hlast, hlow, hclear⟩ := h
    obtain ⟨hshift, hchain⟩ := List.isChain_cons_cons.mp hchain
    obtain ⟨-, hlow⟩ := List.forall_mem_cons.mp hlow
    have hfloor : ¬ floor < c' - half := not_lt.mpr (hlow c' List.mem_cons_self)
    rw [List.length_cons, Nat.add_right_comm, placeScan_succ_of_shift hshift, if_neg hfloor]
    exact ih ⟨rfl, hchain, hlast, hlow, hclear⟩

/-- With as many restarts as channels the scan answers exactly the end of a row of centers. -/
theorem placeScan_eq_some_iff (h₀ : c₀ - half ≤ floor) :
    placeScan half bo floor chs chs.length c₀ = some c ↔ ∃ tried, Tried half bo floor chs c₀ c tried := by
  refine ⟨exists_tried_of_placeScan h₀, fun ⟨tried, h⟩ => ?_⟩
  obtain ⟨hhead, -⟩ := id h
  obtain ⟨rest, rfl⟩ := List.head?_eq_some_iff.mp hhead
  rw [← placementNeverExhaustsItsBound half bo floor c₀ chs rest.length, Nat.add_comm]
  exact placeScan_of_tried h _

end

/-! ### Place -/

theorem place_single_eq (half bo : Int) (ch : Channel) :
    place half bo [ch] = if inWindow half [ch] (ch.low - bo + 1) then some (ch.low - bo + 1) else none := rfl

theorem place_single (half bo c : Int) (ch : Channel) :
    place half bo [ch] = some c ↔ c = ch.low - bo + 1 ∧ inWindow half [ch] c = true := by
  rw [place_single_eq, Option.ite_none_right_eq_some, Option.some.injEq]
  constructor
  · rintro ⟨hin, rfl⟩
    exact ⟨rfl, hin⟩
  · rintro ⟨rfl, hin⟩
    exact ⟨hin, rfl⟩

theorem place_cons_cons (half bo : Int) (first second : Channel) (rest : List Channel) :
    place half bo (first :: second :: rest) =
      if first.low < ((second :: rest).getLastD first).high - half - half then none
      else (placeScan half bo first.low (first :: second :: rest) (first :: second :: rest).length
        (((second :: rest).getLastD first).high - half)).filter (inWindow half (first :: second :: rest)) := by
  simp only [place]
  cases placeScan half bo first.low (first :: second :: rest) (first :: second :: rest).length
    (((second :: rest).getLastD first).high - half) <;> rfl

theorem place_several (half bo c : Int) (first last : Channel) (inner : List Channel) :
    place half bo (first :: inner ++ [last]) = some c ↔
      ∃ tried, Tried half bo first.low (first :: inner ++ [last]) (last.high - half) c tried ∧
        inWindow half (first :: inner ++ [last]) c = true := by
  have hlast : (inner ++ [last]).getLastD first = last := by simp
  obtain ⟨second, rest, hrest⟩ : ∃ second rest, inner ++ [last] = second :: rest := by
    cases inner <;> simp
  rw [List.cons_append, hrest, place_cons_cons, ← hrest, hlast]
  by_cases h₀ : last.high - half ≤ first.low + half
  · rw [if_neg (by omega), Option.filter_eq_some_iff, placeScan_eq_some_iff (by omega), exists_and_right]
  · rw [if_pos (by omega)]
    refine iff_of_false (by simp) ?_
    rintro ⟨tried, ⟨hhead, -, -, hlow, -⟩, -⟩
    have := hlow _ (List.mem_of_mem_head? hhead)
    omega

/-- Settles O24: none of no channel, the one center of one, and the end of a row of centers of two or more. -/
theorem placedCenterIsFeasible : Obligations.PlacedCenterIsFeasible := by
  refine fun half bo c chs => ⟨?empty, ?single, ?several⟩
  case empty =>
    rintro rfl
    rfl
  case single =>
    rintro ch rfl
    rw [place_single, inWindow_iff]
    rfl
  case several =>
    rintro first inner last rfl
    rw [place_several, inWindow_iff]
    refine exists_congr fun tried => ⟨?_, ?_⟩
    · rintro ⟨⟨hhead, hchain, hlast, hlow, hclear⟩, hwindow⟩
      exact ⟨hhead, hchain, hlast, hlow, hclear, hwindow⟩
    · rintro ⟨hhead, hchain, hlast, hlow, hclear, hwindow⟩
      exact ⟨⟨hhead, hchain, hlast, hlow, hclear⟩, hwindow⟩

end Sys2Proof.Proofs.Placement
end

section
/-! PROOF. `ALLOC.GETSOURCE`: its checks in order, and its commit (44_alloc.md R280 to R285; 41_cic.md R164, R165).

Each check has an equation under the checks passed before it; what is left after the placement is `settled`. -/

namespace Sys2Proof.Proofs.Allocation

open Sys2Proof.Machine

/-! ### The slot and the set -/

theorem freeSlot_of_lowest {s : State} {k : Nat} (hk : k < s.cfg.nsrc) (hdead : (s.slot k).live = false)
    (hlower : ∀ j < k, (s.slot j).live = true) : freeSlot s = some k := by
  refine List.find?_range_eq_some.mpr ⟨by simp [hdead], List.mem_range.mpr hk, fun j hj => by simp [hlower j hj]⟩

/-- The proposed set as the statements write it: the channel behind those of no higher frequency. -/
def proposedSet (s : State) (freq : BitVec 64) (bw : Word) (k : Nat) : List Channel :=
  s.active.takeWhile (fun ch => decide (ch.freq.toInt ≤ freq.toInt)) ++
    ⟨freq, bw, BitVec.ofNat 8 k⟩ :: s.active.dropWhile (fun ch => decide (ch.freq.toInt ≤ freq.toInt))

theorem insertChannel_eq_proposedSet (s : State) (freq : BitVec 64) (bw : Word) (k : Nat) :
    insertChannel ⟨freq, bw, BitVec.ofNat 8 k⟩ s.active = proposedSet s freq bw k :=
  insertChannel_eq _ _

/-! ### The checks -/

/-- The retune is checked, then the decimator constructed, for a center that has been placed (R280 steps 7 and 8). -/
def settled (s : State) (r : BitVec 16) (pass stop : Word) (k : Nat) (chs : List Channel) (c : Int) :
    Except Status Grant := do
  let tuned ← retuneCheck s c
  let plan ← cicConstruct s s.fc.rate r pass stop
  return ⟨k, chs, c, tuned, plan⟩

section
variable {s : State} {r : BitVec 16} {freq : BitVec 64} {bw pass stop : Word}

theorem allocate_of_no_rate (hrate : s.fc.rate = 0) : allocate s r freq bw pass stop = .error .notcfg :=
  if_pos hrate

variable (hrate : s.fc.rate ≠ 0)
include hrate

theorem allocate_of_illegal (hbad : freq.toInt < 0 ∨ 2 ^ 62 - 1 < freq.toInt) :
    allocate s r freq bw pass stop = .error .operand := by
  have hf : legalFreq freq = false := by
    rw [← Bool.not_eq_true, legalFreq_iff]
    omega
  exact (if_neg hrate).trans (if_pos hf)

variable (hlow : 0 ≤ freq.toInt) (hhigh : freq.toInt ≤ 2 ^ 62 - 1)
include hlow hhigh

theorem allocate_of_active (hdup : ∃ c ∈ s.active, c.freq = freq) :
    allocate s r freq bw pass stop = .error .duplicate := by
  have hf : legalFreq freq = true := (legalFreq_iff freq).mpr ⟨hlow, hhigh⟩
  have hany : (s.active.any fun c => c.freq = freq) = true := by simpa using hdup
  exact (if_neg hrate).trans ((if_neg (by simp [hf])).trans (if_pos hany))

variable (hnew : ∀ c ∈ s.active, c.freq ≠ freq)
include hnew

theorem allocate_of_full (hfull : ∀ k < s.cfg.nsrc, (s.slot k).live = true) :
    allocate s r freq bw pass stop = .error .full := by
  have hf : legalFreq freq = true := (legalFreq_iff freq).mpr ⟨hlow, hhigh⟩
  have hany : ¬ (s.active.any fun c => c.freq = freq) = true := by simpa using hnew
  rw [allocate, if_neg hrate, if_neg (by simp [hf]), if_neg hany, freeSlot_eq_none.mpr hfull]

variable {k : Nat} (hk : k < s.cfg.nsrc) (hdead : (s.slot k).live = false) (hlower : ∀ j < k, (s.slot j).live = true)
include hk hdead hlower

theorem allocate_of_unplaced (hplace : place s.fc.halfwin s.fc.blackout.toNat (proposedSet s freq bw k) = none) :
    allocate s r freq bw pass stop = .error .infeasible := by
  have hf : legalFreq freq = true := (legalFreq_iff freq).mpr ⟨hlow, hhigh⟩
  have hany : ¬ (s.active.any fun c => c.freq = freq) = true := by simpa using hnew
  rw [allocate, if_neg hrate, if_neg (by simp [hf]), if_neg hany, freeSlot_of_lowest hk hdead hlower]
  simp only [insertChannel_eq_proposedSet, hplace]

theorem allocate_of_placed {c : Int}
    (hplace : place s.fc.halfwin s.fc.blackout.toNat (proposedSet s freq bw k) = some c) :
    allocate s r freq bw pass stop = settled s r pass stop k (proposedSet s freq bw k) c := by
  have hf : legalFreq freq = true := (legalFreq_iff freq).mpr ⟨hlow, hhigh⟩
  have hany : ¬ (s.active.any fun c => c.freq = freq) = true := by simpa using hnew
  rw [allocate, if_neg hrate, if_neg (by simp [hf]), if_neg hany, freeSlot_of_lowest hk hdead hlower]
  simp only [insertChannel_eq_proposedSet, hplace, settled]
  cases retuneCheck s c with
  | error e => rfl
  | ok tuned => cases cicConstruct s s.fc.rate r pass stop <;> rfl

end

/-! ### The retune and the construction -/

section
variable {s : State} {c : Int}

theorem retuneCheck_of_outside (hmoved : s.fc.freqValid = false ∨ c ≠ s.fc.freq.toInt)
    (hout : resolve s.cfg c s.fc.ppm.toInt < s.fc.min.toInt ∨ s.fc.max.toInt < resolve s.cfg c s.fc.ppm.toInt) :
    retuneCheck s c = .error .range := by
  rw [retuneCheck, if_pos hmoved, Tuning.freqCheck_of_outside hout]

theorem retuneCheck_of_same (hvalid : s.fc.freqValid = true) (hc : c = s.fc.freq.toInt) :
    retuneCheck s c = .ok none :=
  if_neg (by simp [hvalid, hc])

theorem retuneCheck_of_inside (hmoved : ¬ (s.fc.freqValid = true ∧ c = s.fc.freq.toInt))
    (hmin : s.fc.min.toInt ≤ resolve s.cfg c s.fc.ppm.toInt) (hmax : resolve s.cfg c s.fc.ppm.toInt ≤ s.fc.max.toInt) :
    retuneCheck s c = .ok (some (resolve s.cfg c s.fc.ppm.toInt)) := by
  have hmoved : s.fc.freqValid = false ∨ c ≠ s.fc.freq.toInt := by
    simpa only [not_and_or, Bool.not_eq_true] using hmoved
  rw [retuneCheck, if_pos hmoved, Tuning.freqCheck_of_inside hmin hmax]

/-- The tuned value when the center moves. -/
def retuned (s : State) (c : Int) : Option Int :=
  if s.fc.freqValid = true ∧ c = s.fc.freq.toInt then none else some (resolve s.cfg c s.fc.ppm.toInt)

theorem retuneCheck_eq_ok
    (h : (s.fc.freqValid = true ∧ c = s.fc.freq.toInt) ∨
      (s.fc.min.toInt ≤ resolve s.cfg c s.fc.ppm.toInt ∧ resolve s.cfg c s.fc.ppm.toInt ≤ s.fc.max.toInt)) :
    retuneCheck s c = .ok (retuned s c) := by
  by_cases hsame : s.fc.freqValid = true ∧ c = s.fc.freq.toInt
  · rw [retuned, if_pos hsame, retuneCheck_of_same hsame.1 hsame.2]
  · obtain ⟨hmin, hmax⟩ := h.resolve_left hsame
    rw [retuned, if_neg hsame, retuneCheck_of_inside hsame hmin hmax]

variable {rate : Word} {r : BitVec 16} {pass stop : Word} {fs : List Nat} {taps : List F32}

theorem cicConstruct_of_unsupported (hfs : supported r.toNat = none) :
    cicConstruct s rate r pass stop = .error .ratio := by
  rw [cicConstruct, hfs]

theorem cicConstruct_of_failed (hfs : supported r.toNat = some fs) (hmiss : cacheFind s.cache rate r = none)
    (hdesign : design s.cfg.tapsMax rate r pass stop = none) : cicConstruct s rate r pass stop = .error .filter := by
  rw [cicConstruct, hfs]
  simp only [hmiss, hdesign]

theorem cicConstruct_of_hit {e : CacheEntry} (hfs : supported r.toNat = some fs)
    (hhit : cacheFind s.cache rate r = some e) : cicConstruct s rate r pass stop = .ok ⟨fs, e.taps, true⟩ := by
  rw [cicConstruct, hfs]
  simp only [hhit]

theorem cicConstruct_of_designed (hfs : supported r.toNat = some fs) (hmiss : cacheFind s.cache rate r = none)
    (hdesign : design s.cfg.tapsMax rate r pass stop = some taps) :
    cicConstruct s rate r pass stop = .ok ⟨fs, taps, false⟩ := by
  rw [cicConstruct, hfs]
  simp only [hmiss, hdesign]

end

/-! ### The command -/

/-- The ratio stands in the IMM field of the header. -/
theorem header_allocGetsource (r : BitVec 16) (freq : BitVec 64) (bw pass stop : Word) :
    (Instr.allocGetsource r freq bw pass stop).header = 0x20000000#32 ||| r.setWidth 32 :=
  headerWord_eq_or 0x20 0 r

section
variable {s : State} {r : BitVec 16} {freq : BitVec 64} {bw pass stop : Word}

theorem exec_allocGetsource_of_error {e : Status} (h : allocate s r freq bw pass stop = .error e) :
    exec (.allocGetsource r freq bw pass stop) s = .next (s.raise (0x20000000#32 ||| r.setWidth 32) e) := by
  rw [← header_allocGetsource r freq bw pass stop]
  change execAllocGetsource r freq bw pass stop s = _
  rw [execAllocGetsource, h]
  rfl

theorem exec_allocGetsource_of_ok {g : Grant} (h : allocate s r freq bw pass stop = .ok g) :
    exec (.allocGetsource r freq bw pass stop) s =
      .next ((s.grant r freq bw pass stop g).answering [u32 g.slot]) := by
  change execAllocGetsource r freq bw pass stop s = _
  rw [execAllocGetsource, h]
  exact succeed_eq (by simp) _

theorem settled_of_range {k : Nat} {chs : List Channel} {c : Int} {e : Status} (h : retuneCheck s c = .error e) :
    settled s r pass stop k chs c = .error e := by
  rw [settled, h]
  rfl

theorem settled_of_construct {k : Nat} {chs : List Channel} {c : Int} {tuned : Option Int} {e : Status}
    (h : retuneCheck s c = .ok tuned) (hc : cicConstruct s s.fc.rate r pass stop = .error e) :
    settled s r pass stop k chs c = .error e := by
  rw [settled, h, hc]
  rfl

theorem settled_of_ok {k : Nat} {chs : List Channel} {c : Int} {tuned : Option Int} {p : Plan}
    (h : retuneCheck s c = .ok tuned) (hc : cicConstruct s s.fc.rate r pass stop = .ok p) :
    settled s r pass stop k chs c = .ok ⟨k, chs, c, tuned, p⟩ := by
  rw [settled, h, hc]
  rfl

end

/-- Settles O21: each check fails with its status under the checks before it. -/
theorem allocGetsourceChecksInOrder : Obligations.AllocGetsourceChecksInOrder := by
  intro r freq bw pass stop s
  refine ⟨congrArg (· :: _) (header_allocGetsource r freq bw pass stop), fun hrate => ?_, fun hrate =>
    ⟨fun hbad => ?_, fun hlow hhigh => ⟨fun hdup => ?_, fun hnew => ⟨fun hfull => ?_, fun k hk hdead hlower =>
      ⟨fun hplace => ?_, fun c hplace => ⟨fun hmoved hout => ?_, fun hin => ⟨fun hfs => ?_,
        fun hfs hmiss hdesign => ?_⟩⟩⟩⟩⟩⟩⟩
  · exact exec_allocGetsource_of_error (allocate_of_no_rate hrate)
  · exact exec_allocGetsource_of_error (allocate_of_illegal hrate hbad)
  · exact exec_allocGetsource_of_error (allocate_of_active hrate hlow hhigh hdup)
  · exact exec_allocGetsource_of_error (allocate_of_full hrate hlow hhigh hnew hfull)
  · exact exec_allocGetsource_of_error (allocate_of_unplaced hrate hlow hhigh hnew hk hdead hlower hplace)
  all_goals
    refine exec_allocGetsource_of_error
      ((allocate_of_placed (pass := pass) hrate hlow hhigh hnew hk hdead hlower hplace).trans ?_)
  · exact settled_of_range (retuneCheck_of_outside hmoved hout)
  · exact settled_of_construct (retuneCheck_eq_ok hin) (cicConstruct_of_unsupported hfs)
  · obtain ⟨fs, hfs⟩ := Option.ne_none_iff_exists'.mp hfs
    exact settled_of_construct (retuneCheck_eq_ok hin) (cicConstruct_of_failed hfs hmiss hdesign)

/-- What is constructed, and the cache after it, from a hit or from a design (41_cic.md R164, R166). -/
theorem construct_commits {s : State} {rate : Word} {r : BitVec 16} {pass stop : Word} {fs : List Nat}
    {hit : Option CacheEntry} {taps : List F32} {cache : List CacheEntry} (hfs : supported r.toNat = some fs)
    (hfind : cacheFind s.cache rate r = hit)
    (htaps : (hit.map (·.taps) = some taps ∧ cache = s.cache) ∨
      (hit = none ∧ design s.cfg.tapsMax rate r pass stop = some taps ∧
        cache = if s.cache.length < s.cfg.cacheCap then s.cache ++ [⟨rate, r, taps⟩] else s.cache)) :
    ∃ p : Plan, cicConstruct s rate r pass stop = .ok p ∧ p.fs = fs ∧ p.taps = taps ∧
      cacheAfter s rate r p = cache := by
  rcases htaps with ⟨hmap, rfl⟩ | ⟨rfl, hdesign, rfl⟩
  · obtain ⟨e, rfl, rfl⟩ := Option.map_eq_some_iff.mp hmap
    exact ⟨_, cicConstruct_of_hit hfs hfind, rfl, rfl, rfl⟩
  · exact ⟨_, cicConstruct_of_designed hfs hfind hdesign, rfl, rfl, rfl⟩

/-- Settles O22: the checks pass, and the commit writes what they found. -/
theorem allocGetsourceCommits : Obligations.AllocGetsourceCommits := by
  intro r freq bw pass stop s k c fs hit taps cache half notAbove proposed hrate hlow hhigh hnew hk hdead hlower hplace
    hin hfs hfind htaps t
  obtain ⟨p, hp, rfl, rfl, rfl⟩ := construct_commits hfs hfind htaps
  have hok := (allocate_of_placed (r := r) (pass := pass) (stop := stop) hrate hlow hhigh hnew hk hdead hlower
    hplace).trans (settled_of_ok (retuneCheck_eq_ok hin) hp)
  rw [exec_allocGetsource_of_ok hok]
  by_cases hsame : s.fc.freqValid = true ∧ c = s.fc.freq.toInt
  · rw [if_pos hsame, TunerAndAllocator.grant_of_no_retune (if_pos hsame)]
    rfl
  · rw [if_neg hsame, TunerAndAllocator.grant_of_retune (if_neg hsame)]
    rfl

end Sys2Proof.Proofs.Allocation
end

section
/-! PROOF. The record of a block command: its number of samples in IMM, then two words a sample (30_encoding.md R101,
R103). -/

namespace Sys2Proof.Proofs.Blocks

open Sys2Proof.Machine

theorem wordsOfSamples_eq_flatMap (xs : List C32) : wordsOfSamples xs = xs.flatMap fun z => [z.i, z.q] := by
  induction xs with
  | nil => rfl
  | cons x xs ih =>
    rw [wordsOfSamples, ih]
    rfl

theorem setWidth_blockImm (xs : List C32) : (blockImm xs).setWidth 32 = BitVec.ofNat 32 (xs.length % 65536) := by
  apply BitVec.eq_of_toNat_eq
  simp [blockImm]

/-- A block command's header. -/
theorem headerWord_blockImm (op k : BitVec 8) (xs : List C32) :
    headerWord op k (blockImm xs) =
      op.setWidth 32 <<< 24 ||| slotBits k ||| BitVec.ofNat 32 (xs.length % 65536) := by
  rw [headerWord_eq_or, setWidth_blockImm]

/-- A block command's record. -/
theorem record_eq (header : Word) (xs : List C32) :
    header :: wordsOfSamples xs = header :: xs.flatMap fun z => [z.i, z.q] := by
  rw [wordsOfSamples_eq_flatMap]

end Sys2Proof.Proofs.Blocks
end

section
/-! PROOF. The source commands: lifecycle, feed and drain (45_src.md R300 to R315).

Work on a slot never reads its queue, so a drain takes its buffers off first and then runs their samples. -/

namespace Sys2Proof.Proofs.Sources

open Sys2Proof.Machine

/-! ### Start and stop (R304, R305) -/

section
variable {s : State} {k : BitVec 8}

theorem header_srcStart (k : BitVec 8) : (Instr.srcStart k).header = 0x30000000#32 ||| slotBits k :=
  SrcRegisters.headerWord_imm_zero 0x30 k

theorem header_srcStop (k : BitVec 8) : (Instr.srcStop k).header = 0x31000000#32 ||| slotBits k :=
  SrcRegisters.headerWord_imm_zero 0x31 k

variable (hk : k.toNat < s.cfg.nsrc)
include hk

theorem exec_srcStart_of_stopped (hstate : (s.slot k.toNat).src.state = .stopped) :
    exec (.srcStart k) s = .next (s.raise (0x30000000#32 ||| slotBits k) .stopped) := by
  change execSrcStart k s = _
  rw [execSrcStart, withSource_stopped hk hstate, header_srcStart]

theorem exec_srcStart_of_refused (hstopped : (s.slot k.toNat).src.state ≠ .stopped)
    (hidle : (s.slot k.toNat).src.state ≠ .idle) :
    exec (.srcStart k) s = .next (s.raise (0x30000000#32 ||| slotBits k) .state) := by
  change execSrcStart k s = _
  rw [execSrcStart, withSource_refused hk hstopped (decide_eq_false hidle), header_srcStart]

theorem exec_srcStart_of_idle (hstate : (s.slot k.toNat).src.state = .idle) :
    exec (.srcStart k) s =
      .next (s.put k { s.slot k.toNat with src := { (s.slot k.toNat).src with state := .running } } []) := by
  change execSrcStart k s = _
  rw [execSrcStart, withSource_applies hk (by simp [hstate]) (decide_eq_true hstate)]
  exact succeed_eq (by simp) _

theorem exec_srcStop_of_stopped (hstate : (s.slot k.toNat).src.state = .stopped) :
    exec (.srcStop k) s = .next (s.raise (0x31000000#32 ||| slotBits k) .stopped) := by
  change execSrcStop k s = _
  rw [execSrcStop, withSource_stopped hk hstate, header_srcStop]

theorem exec_srcStop_of_free (hstate : (s.slot k.toNat).src.state = .free) :
    exec (.srcStop k) s = .next (s.raise (0x31000000#32 ||| slotBits k) .state) := by
  change execSrcStop k s = _
  rw [execSrcStop, withSource_refused hk (by simp [hstate]) (by simp [hstate]), header_srcStop]

theorem exec_srcStop_of_live (hlive : (s.slot k.toNat).live = true) :
    exec (.srcStop k) s = .next ((s.release k.toNat).answering []) := by
  have hstate := (live_iff _).mp hlive
  have hstopped : (s.slot k.toNat).src.state ≠ .stopped := by
    rcases hstate with h | h <;> simp [h]
  change execSrcStop k s = _
  rw [execSrcStop, withSource_applies hk hstopped (decide_eq_true hstate)]
  exact succeed_eq (by simp) _

end

/-- Settles O26: the two records, then each command state by state. -/
theorem srcStartAndStop : Obligations.SrcStartAndStop := by
  refine fun k s => ⟨congrArg (· :: []) (header_srcStart k), congrArg (· :: []) (header_srcStop k), fun hk =>
    ⟨fun hstopped => ⟨exec_srcStart_of_stopped hk hstopped, exec_srcStop_of_stopped hk hstopped⟩, fun hfree =>
      ⟨exec_srcStart_of_refused hk (by simp [hfree]) (by simp [hfree]), exec_srcStop_of_free hk hfree⟩, fun hrunning =>
      exec_srcStart_of_refused hk (by simp [hrunning]) (by simp [hrunning]), exec_srcStart_of_idle hk, fun hlive => ?_⟩⟩
  rw [exec_srcStop_of_live hk ((live_iff _).mpr hlive), AllocReleaseAndQuery.release_answering_eq_put]

/-- Settles O27: for an active channel both are the release of its slot. -/
theorem stopIsReleaseOfItsChannel : Obligations.StopIsReleaseOfItsChannel := by
  intro s e halloc he
  obtain ⟨hsorted, -, hentry, -⟩ := halloc
  obtain ⟨-, hslot, hlive, -⟩ := hentry e he
  have hkeys : s.active.Pairwise fun a b => a.freq ≠ b.freq :=
    hsorted.imp fun hlt heq => hlt.ne (congrArg BitVec.toInt heq)
  rw [after, after, exec_srcStop_of_live hslot hlive, AllocReleaseAndQuery.exec_allocRelease_of_active hkeys he]
  rfl

/-! ### Feed (R307) -/

theorem header_srcFeed (x : List C32) :
    (Instr.srcFeed x).header = 0x33000000#32 ||| BitVec.ofNat 32 (x.length % 65536) :=
  Blocks.headerWord_blockImm 0x33 0 x

/-- The slot is RUNNING and its queue full. -/
def full (qcap : Nat) (sl : Slot) : Bool := decide (sl.src.state = .running ∧ sl.src.q.length = qcap)

/-- A RUNNING slot's part of a feed, written as one update of its SRC registers. -/
def fed (qcap : Nat) (x : List C32) (sl : Slot) : Slot :=
  if sl.src.state = .running then
    { sl with src := { sl.src with
        q := (if sl.src.q.length = qcap then sl.src.q.tail else sl.src.q) ++ [x]
        ovf := sl.src.ovf || full qcap sl
        ovfCount :=
          if full qcap sl = true ∧ sl.src.ovfCount.toNat < 2 ^ 32 - 1 then sl.src.ovfCount + 1#32
          else sl.src.ovfCount } }
  else sl

theorem satInc_eq_of_lt (n : Word) : satInc n = if n.toNat < 2 ^ 32 - 1 then n + 1#32 else n := by
  have := n.isLt
  rw [satInc_eq]
  by_cases h : n.toNat = 2 ^ 32 - 1
  · rw [if_pos h, if_neg (by omega)]
  · rw [if_neg h, if_pos (by omega)]

theorem feedSlot_eq_fed (qcap : Nat) (x : List C32) (sl : Slot) : feedSlot qcap x sl = fed qcap x sl := by
  unfold feedSlot fed
  by_cases hrun : sl.src.state = .running
  · by_cases hfull : sl.src.q.length = qcap
    · simp [hrun, hfull, full, enqueue, dequeue, satInc_eq_of_lt]
    · simp [hrun, hfull, full, enqueue]
  · rw [if_neg hrun, if_neg hrun]

/-- Settles O28: the operand test, then the feed slot by slot. -/
theorem srcFeedCopiesToRunningSlots : Obligations.SrcFeedCopiesToRunningSlots := by
  intro x s isFull
  refine ⟨?record, fun hbad => ?refused, fun hne hmax => ?fed⟩
  case record =>
    rw [encode, header_srcFeed]
    exact Blocks.record_eq _ x
  case refused =>
    rw [← header_srcFeed]
    exact if_pos (hbad.imp_left List.length_eq_zero_iff.mpr)
  case fed =>
    have hlegal : ¬ (x.length = 0 ∨ s.cfg.bufMax < x.length) := by
      rw [List.length_eq_zero_iff, not_or, not_lt]
      exact ⟨hne, hmax⟩
    change execSrcFeed x s = _
    rw [execSrcFeed, if_neg hlegal, succeed_eq (by simp), funext (feedSlot_eq_fed s.cfg.qcap x)]
    rfl

/-! ### Work that does not read the queue -/

/-- The work with another queue in its slot. -/
def withQueue (w : Work) (q : List (List C32)) : Work :=
  { w with sl := { w.sl with src := { w.sl.src with q := q } } }

/-- A sample's work neither reads the queue nor writes it. -/
def IgnoresQueue {α : Type} (f : Work → α → Work) : Prop := ∀ w q x, f (withQueue w q) x = withQueue (f w x) q

theorem foldl_withQueue {α : Type} {f : Work → α → Work} (hf : IgnoresQueue f) (w : Work) (q : List (List C32))
    (xs : List α) : xs.foldl f (withQueue w q) = withQueue (xs.foldl f w) q := by
  induction xs generalizing w with
  | nil => rfl
  | cons x xs ih => rw [List.foldl_cons, List.foldl_cons, hf, ih]

theorem ignoresQueue_pskOne (c : Config) : IgnoresQueue (pskOne c) := by
  intro w q x
  simp only [pskOne, withQueue]
  split <;> rfl

theorem ignoresQueue_route (c : Config) : IgnoresQueue (route c) := by
  intro w q b
  by_cases hcfgd : w.sl.psk.cfgd = true
  · have hcfgd' : (withQueue w q).sl.psk.cfgd = true := hcfgd
    rw [route, route, if_pos hcfgd, if_pos hcfgd']
    exact foldl_withQueue (ignoresQueue_pskOne c) w q b
  · have hcfgd' : ¬ (withQueue w q).sl.psk.cfgd = true := hcfgd
    rw [route, route, if_neg hcfgd, if_neg hcfgd']
    rfl

theorem ignoresQueue_drainOne (c : Config) : IgnoresQueue (drainOne c) := by
  intro w q x
  simp only [drainOne, withQueue]
  split
  · rfl
  · rw [← withQueue, ← ignoresQueue_route]
    rfl

theorem drainBuffer_eq (c : Config) (w : Work) (b : List C32) :
    drainBuffer c w b = withQueue (b.foldl (drainOne c) w) (dequeue w.sl.src.q) :=
  foldl_withQueue (ignoresQueue_drainOne c) w _ b

/-- Taking the buffers one at a time is running all their samples and dropping as many buffers. -/
theorem foldl_drainBuffer (c : Config) (w : Work) (bs : List (List C32)) :
    bs.foldl (drainBuffer c) w = withQueue (bs.flatten.foldl (drainOne c) w) (w.sl.src.q.drop bs.length) := by
  induction bs generalizing w with
  | nil => rfl
  | cons b bs ih =>
    have hq : (withQueue (b.foldl (drainOne c) w) (dequeue w.sl.src.q)).sl.src.q = w.sl.src.q.tail := rfl
    rw [List.foldl_cons, ih, drainBuffer_eq, hq, foldl_withQueue (ignoresQueue_drainOne c), List.drop_tail,
      List.flatten_cons, List.foldl_append, List.length_cons]
    rfl

/-! ### Drain (R309, R310) -/

/-- All the work of a drain of the slot. -/
def drainWork (c : Config) (sl : Slot) : Work := (drained c sl).foldl (drainBuffer c) (workOn sl)

theorem length_drained (c : Config) (sl : Slot) : (drained c sl).length = min c.drainCap sl.src.q.length :=
  List.length_take

/-- The buffers are off the queue before their samples run. -/
theorem drainWork_eq (c : Config) (sl : Slot) :
    drainWork c sl = (sl.src.q.take c.drainCap).flatten.foldl (drainOne c)
      (workOn { sl with src := { sl.src with q := sl.src.q.drop c.drainCap } }) := by
  have hdrop : sl.src.q.drop (drained c sl).length = sl.src.q.drop c.drainCap := by
    rw [length_drained]
    rcases le_total c.drainCap sl.src.q.length with hle | hle
    · rw [min_eq_left hle]
    · rw [min_eq_right hle, List.drop_length, List.drop_eq_nil_of_le hle]
  rw [drainWork, foldl_drainBuffer, workOn_sl, hdrop]
  exact (foldl_withQueue (ignoresQueue_drainOne c) (workOn sl) _ _).symm

/-- One loop step at work: a symbol is counted, and emitted where it is observed (42_psk.md R216). -/
theorem pskOne_eq (c : Config) (w : Work) (z : C32) :
    pskOne c w z = { w with
      sl := { w.sl with psk := (pskRun c.elOffset w.sl.psk z).1 }
      nsym := w.nsym + (if (pskRun c.elOffset w.sl.psk z).2.isSome then 1 else 0)
      out := w.out ++ (if w.sl.src.consumer then
        (pskRun c.elOffset w.sl.psk z).2.toList.map fun v => OutItem.symbol v.z else [])
      tap := w.tap ++ (if w.sl.src.tapen then
        (pskRun c.elOffset w.sl.psk z).2.toList.map SymbolEvent.snap else []) } := by
  simp only [pskOne]
  split <;> simp_all

/-- A completed block is counted and routed (45_src.md R309, R310). -/
def routeCounted (c : Config) (w : Work) (b : List C32) : Work := route c { w with nblk := w.nblk + 1 } b

theorem drainOne_eq (c : Config) (w : Work) (x : C32) :
    drainOne c w x =
      (cicRun c w.sl.cic (mixRun w.sl.mix x).2).blk.toList.foldl (routeCounted c)
        { w with sl := { w.sl with
            mix := (mixRun w.sl.mix x).1
            cic := (cicRun c w.sl.cic (mixRun w.sl.mix x).2).cic } } := by
  simp only [drainOne]
  split <;> rename_i hblk <;> rw [hblk] <;> rfl

section
variable {s : State} {k : BitVec 8}

theorem header_srcDrain (k : BitVec 8) : (Instr.srcDrain k).header = 0x32000000#32 ||| slotBits k :=
  SrcRegisters.headerWord_imm_zero 0x32 k

variable (hk : k.toNat < s.cfg.nsrc)
include hk

theorem exec_srcDrain_of_stopped (hstate : (s.slot k.toNat).src.state = .stopped) :
    exec (.srcDrain k) s = .next (s.raise (0x32000000#32 ||| slotBits k) .stopped) := by
  change execSrcDrain k s = _
  rw [execSrcDrain, withSource_stopped hk hstate, header_srcDrain]

theorem exec_srcDrain_of_refused (hstate : (s.slot k.toNat).src.state = .free ∨ (s.slot k.toNat).src.state = .idle) :
    exec (.srcDrain k) s = .next (s.raise (0x32000000#32 ||| slotBits k) .state) := by
  have hstopped : (s.slot k.toNat).src.state ≠ .stopped := by
    rcases hstate with h | h <;> simp [h]
  have hrunning : (s.slot k.toNat).src.state ≠ .running := by
    rcases hstate with h | h <;> simp [h]
  change execSrcDrain k s = _
  rw [execSrcDrain, withSource_refused hk hstopped (decide_eq_false hrunning), header_srcDrain]

theorem exec_srcDrain_of_running (hstate : (s.slot k.toNat).src.state = .running) :
    exec (.srcDrain k) s =
      .next ((s.store k.toNat (drainWork s.cfg (s.slot k.toNat))).answering
        [u32 (drained s.cfg (s.slot k.toNat)).length, u32 (drainWork s.cfg (s.slot k.toNat)).nblk,
          u32 (drainWork s.cfg (s.slot k.toNat)).nsym]) := by
  change execSrcDrain k s = _
  rw [execSrcDrain, withSource_applies hk (by simp [hstate]) (decide_eq_true hstate)]
  exact succeed_eq (by simp) _

end

/-- Settles O29: the refusals, then the work of the drain sample by sample. -/
theorem srcDrainRunsItsBuffers : Obligations.SrcDrainRunsItsBuffers := by
  intro k s symbols block sample
  have hsymbols : symbols = pskOne s.cfg := funext fun w => funext fun z => (pskOne_eq s.cfg w z).symm
  have hblock : block = routeCounted s.cfg := by
    funext w b
    simp only [block, hsymbols]
    rfl
  have hsample : sample = drainOne s.cfg := by
    funext w x
    rw [drainOne_eq, ← hblock]
    rfl
  refine ⟨congrArg (· :: []) (header_srcDrain k), fun hk => ⟨exec_srcDrain_of_stopped hk,
    exec_srcDrain_of_refused hk, fun hrunning => ?_⟩⟩
  rw [exec_srcDrain_of_running hk hrunning, length_drained, drainWork_eq, hsample]
  rfl

/-! ### Two drains (R315) -/

/-- A drain's state, apart from the answer's words. -/
theorem after_srcDrain {s : State} {k : BitVec 8} (hk : k.toNat < s.cfg.nsrc)
    (hstate : (s.slot k.toNat).src.state = .running) :
    ∃ rs, after (.srcDrain k) s = (s.store k.toNat (drainWork s.cfg (s.slot k.toNat))).answering rs := by
  rw [after, exec_srcDrain_of_running hk hstate]
  exact ⟨_, rfl⟩

theorem slot_store_ne {s : State} {j k : Nat} (h : j ≠ k) (w : Work) (rs : List Word) :
    ((s.store k w).answering rs).slot j = s.slot j :=
  slot_setSlot_ne h w.sl

/-- Work on two slots is stored in either order. -/
theorem store_comm {s : State} {j k : Nat} (h : j ≠ k) (v w : Work) (rs rs' rs₂ rs₂' : List Word) :
    ((((s.store j v).answering rs).store k w).answering rs').withoutResponses =
      ((((s.store k w).answering rs₂).store j v).answering rs₂').withoutResponses := by
  simp only [State.withoutResponses, State.answering, store_eq]
  rw [List.set_comm v.sl w.sl h, List.modify_modify_ne _ _ _ h, List.modify_modify_ne _ _ _ h]

/-- Settles O30: the second drain finds its slot as the first left it, untouched. -/
theorem drainsOfTwoSlotsCommute : Obligations.DrainsOfTwoSlotsCommute := by
  intro k k' s hne hk hk' hrunning hrunning'
  have hne : k.toNat ≠ k'.toNat := fun h => hne (BitVec.eq_of_toNat_eq h)
  obtain ⟨rs, h⟩ := after_srcDrain hk hrunning
  obtain ⟨rs', h'⟩ := after_srcDrain hk' hrunning'
  have hslot' := slot_store_ne (s := s) hne.symm (drainWork s.cfg (s.slot k.toNat)) rs
  have hslot := slot_store_ne (s := s) hne (drainWork s.cfg (s.slot k'.toNat)) rs'
  obtain ⟨rs₂, h₂⟩ := after_srcDrain (s := after (.srcDrain k) s) (k := k') (by rw [h]; exact hk')
    (by rw [h, hslot']; exact hrunning')
  obtain ⟨rs₂', h₂'⟩ := after_srcDrain (s := after (.srcDrain k') s) (k := k) (by rw [h']; exact hk)
    (by rw [h', hslot]; exact hrunning)
  rw [h₂, h₂', h, h', hslot, hslot']
  exact store_comm hne _ _ _ _ _ _

end Sys2Proof.Proofs.Sources
end

section
/-! PROOF. The MIX commands, and the phase of the oscillator (40_mix.md R130 to R138). -/

namespace Sys2Proof.Proofs.Oscillator

open Sys2Proof.Machine

/-! ### The commands -/

section
variable {s : State} {k : BitVec 8}

theorem header_mixSetfreq (k : BitVec 8) (f : BitVec 64) (rate : Word) :
    (Instr.mixSetfreq k f rate).header = 0x40000000#32 ||| slotBits k :=
  SrcRegisters.headerWord_imm_zero 0x40 k

theorem header_mixNext (k : BitVec 8) : (Instr.mixNext k).header = 0x41000000#32 ||| slotBits k :=
  SrcRegisters.headerWord_imm_zero 0x41 k

theorem header_mixStep (k : BitVec 8) (x : C32) : (Instr.mixStep k x).header = 0x42000000#32 ||| slotBits k :=
  SrcRegisters.headerWord_imm_zero 0x42 k

theorem header_mixGetstate (k : BitVec 8) : (Instr.mixGetstate k).header = 0x43000000#32 ||| slotBits k :=
  SrcRegisters.headerWord_imm_zero 0x43 k

theorem exec_mixGetstate (hk : k.toNat < s.cfg.nsrc) :
    exec (.mixGetstate k) s = .next (s.answering
      [(s.slot k.toNat).mix.phase, (s.slot k.toNat).mix.inc, wordOfBool (s.slot k.toNat).mix.cfgd]) := by
  change execMixGetstate k s = _
  rw [execMixGetstate, withSlot_present hk]
  exact succeed_eq (by simp) _

variable (hk : Standalone s k)
include hk

theorem exec_mixSetfreq_of_illegal {f : BitVec 64} {rate : Word}
    (hbad : rate = 0 ∨ f.toInt < -(2 ^ 62 - 1) ∨ 2 ^ 62 - 1 < f.toInt) :
    exec (.mixSetfreq k f rate) s = .next (s.raise (0x40000000#32 ||| slotBits k) .operand) := by
  have hbad : rate = 0 ∨ legalOffset f = false := by
    refine hbad.imp_right fun h => ?_
    rw [← Bool.not_eq_true, legalOffset_iff]
    omega
  change execMixSetfreq k f rate s = _
  rw [execMixSetfreq, withStandalone_of_standalone hk, if_pos hbad, header_mixSetfreq, fail]

/-- The phase is kept (R132). -/
theorem exec_mixSetfreq_of_legal {f : BitVec 64} {rate : Word} (hrate : rate ≠ 0)
    (hlow : -(2 ^ 62 - 1) ≤ f.toInt) (hhigh : f.toInt ≤ 2 ^ 62 - 1) :
    exec (.mixSetfreq k f rate) s = .next (s.put k
      { s.slot k.toNat with mix := { (s.slot k.toNat).mix with inc := mixInc f.toInt rate, cfgd := true } } []) := by
  have hf : legalOffset f = true := (legalOffset_iff f).mpr ⟨hlow, hhigh⟩
  have hlegal : ¬ (rate = 0 ∨ legalOffset f = false) := not_or.mpr ⟨hrate, by simp [hf]⟩
  change execMixSetfreq k f rate s = _
  rw [execMixSetfreq, withStandalone_of_standalone hk, if_neg hlegal]
  exact succeed_eq (by simp) _

theorem exec_mixNext_of_unset (hcfgd : (s.slot k.toNat).mix.cfgd = false) :
    exec (.mixNext k) s = .next (s.raise (0x41000000#32 ||| slotBits k) .notcfg) := by
  change execMixNext k s = _
  rw [execMixNext, withStandalone_of_standalone hk, if_pos hcfgd, header_mixNext, fail]

theorem exec_mixStep_of_unset (x : C32) (hcfgd : (s.slot k.toNat).mix.cfgd = false) :
    exec (.mixStep k x) s = .next (s.raise (0x42000000#32 ||| slotBits k) .notcfg) := by
  change execMixStep k x s = _
  rw [execMixStep, withStandalone_of_standalone hk, if_pos hcfgd, header_mixStep, fail]

theorem exec_mixNext_of_set (hcfgd : (s.slot k.toNat).mix.cfgd = true) :
    exec (.mixNext k) s = .next (s.put k { s.slot k.toNat with mix := (oscNext (s.slot k.toNat).mix).1 }
      (wordsC32 (oscNext (s.slot k.toNat).mix).2)) := by
  change execMixNext k s = _
  rw [execMixNext, withStandalone_of_standalone hk, if_neg (by simp [hcfgd])]
  exact succeed_eq (by simp [wordsC32]) _

theorem exec_mixStep_of_set (x : C32) (hcfgd : (s.slot k.toNat).mix.cfgd = true) :
    exec (.mixStep k x) s = .next (s.put k { s.slot k.toNat with mix := (oscNext (s.slot k.toNat).mix).1 }
      (wordsC32 (mixRun (s.slot k.toNat).mix x).2)) := by
  change execMixStep k x s = _
  rw [execMixStep, withStandalone_of_standalone hk, if_neg (by simp [hcfgd])]
  exact succeed_eq (by simp [wordsC32]) _

end

/-- Settles O34: the records, the read-out, then each command under its checks. -/
theorem mixCommandsAnswer : Obligations.MixCommandsAnswer := by
  refine fun k f rate x s => ⟨congrArg (· :: _) (header_mixSetfreq k f rate), congrArg (· :: []) (header_mixNext k),
    congrArg (· :: _) (header_mixStep k x), congrArg (· :: []) (header_mixGetstate k), exec_mixGetstate, fun hk =>
      ⟨exec_mixSetfreq_of_illegal hk, exec_mixSetfreq_of_legal hk, fun hcfgd =>
        ⟨exec_mixNext_of_unset hk hcfgd, exec_mixStep_of_unset hk x hcfgd⟩, fun hcfgd =>
        ⟨exec_mixNext_of_set hk hcfgd, exec_mixStep_of_set hk x hcfgd⟩⟩⟩

/-! ### The phase (R138) -/

/-- A standalone slot that the state has, its mixer configured. -/
structure Ready (s : State) (k : BitVec 8) : Prop where
  standalone : Standalone s k
  exists_slot : k.toNat < s.slots.length
  cfgd : (s.slot k.toNat).mix.cfgd = true

/-- The mixer after `n` oscillator steps. -/
def advanced (n : Nat) (m : Mix) : Mix := { m with phase := m.phase + BitVec.ofNat 32 n * m.inc }

theorem advanced_oscNext (n : Nat) (m : Mix) : advanced n (oscNext m).1 = advanced (n + 1) m := by
  simp only [advanced, oscNext, BitVec.ofNat_add, BitVec.add_mul, BitVec.one_mul]
  congr 1
  rw [BitVec.add_comm (BitVec.ofNat 32 n * m.inc), BitVec.add_assoc]

/-- A command of the oscillator of slot `k`. -/
def Oscillates (k : BitVec 8) (i : Instr) : Prop := i = .mixNext k ∨ ∃ x, i = .mixStep k x

section
variable {s : State} {k : BitVec 8}

theorem after_oscillates {i : Instr} (hi : Oscillates k i) (h : Ready s k) : ∃ rs,
    after i s = s.put k { s.slot k.toNat with mix := (oscNext (s.slot k.toNat).mix).1 } rs := by
  rw [after]
  rcases hi with rfl | ⟨x, rfl⟩
  · rw [exec_mixNext_of_set h.standalone h.cfgd]
    exact ⟨_, rfl⟩
  · rw [exec_mixStep_of_set h.standalone x h.cfgd]
    exact ⟨_, rfl⟩

theorem slot_put_same (h : k.toNat < s.slots.length) (sl : Slot) (rs : List Word) :
    (s.put k sl rs).slot k.toNat = sl :=
  slot_setSlot_same h sl

/-- The phase after a run of oscillator commands, by induction on the commands. -/
theorem mix_afterAll {is : List Instr} (his : ∀ i ∈ is, Oscillates k i) (h : Ready s k) :
    ((afterAll is s).slot k.toNat).mix = advanced is.length (s.slot k.toNat).mix := by
  induction is generalizing s with
  | nil => simp [afterAll, advanced]
  | cons i is ih =>
    obtain ⟨hi, his⟩ := List.forall_mem_cons.mp his
    obtain ⟨rs, hafter⟩ := after_oscillates hi h
    have hslot := slot_put_same h.exists_slot
      { s.slot k.toNat with mix := (oscNext (s.slot k.toNat).mix).1 } rs
    rw [← hafter] at hslot
    have hready : Ready (after i s) k := by
      obtain ⟨⟨hk, hstate⟩, hlen, hcfgd⟩ := h
      exact ⟨⟨by rw [hafter]; exact hk, by rw [hslot]; exact hstate⟩, by rw [hafter]; simpa using hlen,
        by rw [hslot]; exact hcfgd⟩
    have hrest := ih his hready
    rw [hslot] at hrest
    exact hrest.trans (advanced_oscNext _ _)

end

/-- Settles O35: both are runs of oscillator commands. -/
theorem oscillatorPhaseIsExact : Obligations.OscillatorPhaseIsExact := by
  intro k s hk hlen hcfgd
  have h : Ready s k := ⟨hk, hlen, hcfgd⟩
  refine ⟨fun n => ?_, fun xs => ?_⟩
  · rw [mix_afterAll (fun i hi => .inl (List.eq_of_mem_replicate hi)) h, List.length_replicate]
    rfl
  · refine (mix_afterAll (fun i hi => ?_) h).trans ?_
    · obtain ⟨x, -, rfl⟩ := List.mem_map.mp hi
      exact .inr ⟨x, rfl⟩
    · rw [List.length_map]
      rfl

end Sys2Proof.Proofs.Oscillator
end

section
/-! PROOF. Every ratio from 1 to 2801 is supported, and its factors ascend (41_cic.md R152, R153).

What trial division leaves of a ratio is divisible by no prime of the table. The table holds every prime up to 2801, so
of a ratio up to 2801 it leaves 1. -/

namespace Sys2Proof.Proofs.RatioFactors

open Sys2Proof.Machine
open Sys2Proof.Proofs.PrimeTable

/-! ### What is left of a ratio -/

/-- The bound on the passes is never what ends them: each pass at least halves the ratio. -/
theorem not_dvd_divideOut {p n r : Nat} (hp : 2 ≤ p) (hr : 0 < r) (hbound : r < 2 ^ n) :
    ¬ p ∣ (divideOut p n r).2 := by
  induction n generalizing r with
  | zero => omega
  | succ n ih =>
    unfold divideOut
    split
    · next hmod =>
      have hdvd : p ∣ r := Nat.dvd_of_mod_eq_zero hmod
      have hhalf : r / p < 2 ^ n := by
        rw [Nat.div_lt_iff_lt_mul (by omega)]
        calc r < 2 ^ n * 2 := by rwa [← Nat.pow_succ]
          _ ≤ 2 ^ n * p := Nat.mul_le_mul_left _ hp
      exact ih (Nat.div_pos (Nat.le_of_dvd hr hdvd) (by omega)) hhalf
    · next hmod => exact fun hdvd => hmod (Nat.mod_eq_zero_of_dvd hdvd)

theorem divideOut_pos {p n r : Nat} (hr : 0 < r) : 0 < (divideOut p n r).2 :=
  Nat.pos_of_mul_pos_left (by rw [divideOut_prod]; exact hr)

theorem trialDivide_dvd (ps : List Nat) (r : Nat) : (trialDivide ps r).2 ∣ r :=
  Dvd.intro_left _ (trialDivide_prod ps r)

theorem not_dvd_trialDivide {ps : List Nat} (hps : ∀ p ∈ ps, 2 ≤ p) {r : Nat} (hr : 0 < r) {p : Nat} (hp : p ∈ ps) :
    ¬ p ∣ (trialDivide ps r).2 := by
  induction ps generalizing r with
  | nil => cases hp
  | cons q qs ih =>
    rw [trialDivide_cons]
    rcases List.mem_cons.mp hp with rfl | hp
    · exact fun hdvd => not_dvd_divideOut (hps p List.mem_cons_self) hr Nat.lt_log2_self
        (hdvd.trans (trialDivide_dvd qs _))
    · exact ih (fun q hq => hps q (List.mem_cons_of_mem _ hq)) (divideOut_pos hr) hp

/-- A number above 1 that divides the ratio has a prime factor up to 2801, so one in the table. -/
theorem trialDivide_primeTable {r : Nat} (hlow : 1 ≤ r) (hhigh : r ≤ 2801) : (trialDivide primeTable r).2 = 1 := by
  by_contra hleft
  have hprime := Nat.minFac_prime hleft
  have hdvd : (trialDivide primeTable r).2.minFac ∣ r := (Nat.minFac_dvd _).trans (trialDivide_dvd _ _)
  have hmem : (trialDivide primeTable r).2.minFac ∈ primeTable :=
    (mem_primeTable_iff _).mpr ⟨hprime, (Nat.le_of_dvd hlow hdvd).trans hhigh⟩
  exact not_dvd_trialDivide (fun p hp => ((mem_primeTable_iff p).mp hp).1.two_le) hlow hmem (Nat.minFac_dvd _)

/-! ### The order of the factors -/

theorem trialDivide_ascending {ps : List Nat} (hps : ps.Pairwise (· < ·)) (r : Nat) :
    (trialDivide ps r).1.Pairwise (· ≤ ·) := by
  induction ps generalizing r with
  | nil => exact .nil
  | cons p ps ih =>
    obtain ⟨hp, hps⟩ := List.pairwise_cons.mp hps
    rw [trialDivide_cons]
    refine List.pairwise_append.mpr ⟨List.pairwise_of_forall_mem_list fun f hf g hg => ?_, ih hps _, ?_⟩
    · rw [eq_of_mem_divideOut hf, eq_of_mem_divideOut hg]
    · intro f hf g hg
      rw [eq_of_mem_divideOut hf]
      exact (hp g (mem_of_mem_trialDivide hg)).le

theorem supported_of_reached {r : Nat} (hlow : 1 ≤ r) (hhigh : r ≤ 2801) :
    supported r = some (trialDivide primeTable r).1 := by
  rw [supported, if_pos ⟨hlow, hhigh⟩]
  simp only [factor]
  rw [if_pos (trialDivide_primeTable hlow hhigh)]

theorem supported_of_out_of_reach {r : Nat} (hr : r = 0 ∨ 2801 < r) : supported r = none := by
  rw [supported, if_neg (by simp only [rMax]; omega)]

/-- Settles O40: trial division leaves 1 of a ratio the table reaches, and takes the primes in the table's order. -/
theorem everySupportedRatioFactors : Obligations.EverySupportedRatioFactors := by
  refine ⟨fun r hlow hhigh => ?_, fun r hr => supported_of_out_of_reach hr⟩
  have hsup := supported_of_reached hlow hhigh
  obtain ⟨hprod, hprimes⟩ := of_supported hsup
  exact ⟨_, hsup, hprod, fun f hf => (hprimes f hf).1, trialDivide_ascending primeTable_ascending r⟩

end Sys2Proof.Proofs.RatioFactors
end

section
/-! PROOF. NaNs, infinities and zero divisors under the five operations (00_scope.md R9, R10).

Each operation is a chain of tests on the kinds of its operands; an equation for each kind that is not finite by finite
says what it gives, and in the remaining kinds the result is rounded, so no NaN. -/

namespace Sys2Proof.Proofs.Exceptional

open Sys2Proof.Machine
open Sys2Proof.Proofs.Rounding

/-! ### The kinds of data -/

section
variable {a b : F32}

theorem not_isNaN_of_isInf (h : isInf a = true) : isNaN a = false := by
  simp only [isInf, isNaN, decide_eq_true_eq, decide_eq_false_iff_not] at h ⊢
  omega

theorem not_isZero_of_isInf (h : isInf a = true) : isZero a = false := by
  simp only [isInf, isZero, decide_eq_true_eq, decide_eq_false_iff_not] at h ⊢
  omega

theorem isFinite_of_isZero (h : isZero a = true) : isFinite a = true := by
  simp only [isZero, isFinite, decide_eq_true_eq] at h ⊢
  omega

theorem isFinite_of_not_isNaN_of_not_isInf (hnan : isNaN a = false) (hinf : isInf a = false) : isFinite a = true := by
  simpa [hnan, hinf] using finite_or_inf_or_nan a

/-! ### A NaN operand -/

theorem isNaN_fadd_of_isNaN (h : isNaN a = true ∨ isNaN b = true) : isNaN (fadd a b) = true := by
  rw [fadd, if_pos h, isNaN_nanOf]

theorem isNaN_fsub_of_isNaN (h : isNaN a = true ∨ isNaN b = true) : isNaN (fsub a b) = true := by
  rw [fsub, if_pos h, isNaN_nanOf]

theorem isNaN_fmul_of_isNaN (h : isNaN a = true ∨ isNaN b = true) : isNaN (fmul a b) = true := by
  rw [fmul, if_pos h, isNaN_nanOf]

theorem isNaN_fdiv_of_isNaN (h : isNaN a = true ∨ isNaN b = true) : isNaN (fdiv a b) = true := by
  rw [fdiv, if_pos h, isNaN_nanOf]

/-- The conditions with a NaN operand split off. -/
theorem isNaN_iff_of_operands {r : F32} {P : Prop} (hprop : isNaN a = true ∨ isNaN b = true → isNaN r = true)
    (hnew : isNaN a = false → isNaN b = false → (isNaN r = true ↔ P)) :
    isNaN r = true ↔ isNaN a = true ∨ isNaN b = true ∨ P := by
  by_cases hnan : isNaN a = true ∨ isNaN b = true
  · exact iff_of_true (hprop hnan) (or_assoc.mp (.inl hnan))
  · obtain ⟨ha, hb⟩ : isNaN a = false ∧ isNaN b = false := by simpa using hnan
    simp [ha, hb, hnew ha hb]

/-! ### Operands without a NaN -/

theorem fadd_of_not_isNaN (ha : isNaN a = false) (hb : isNaN b = false) :
    fadd a b = addCore (nanOf .add a b) a b := by simp [fadd, ha, hb]

theorem fsub_of_not_isNaN (ha : isNaN a = false) (hb : isNaN b = false) :
    fsub a b = addCore (nanOf .sub a b) a (fneg b) := by simp [fsub, ha, hb]

theorem addCore_of_isInf_of_isFinite {onNaN : F32} (ha : isInf a = true) (hb : isFinite b = true) :
    addCore onNaN a b = a := by simp [addCore, ha, not_isInf_of_isFinite hb]

theorem addCore_of_isFinite_of_isInf {onNaN : F32} (ha : isFinite a = true) (hb : isInf b = true) :
    addCore onNaN a b = b := by simp [addCore, hb, not_isInf_of_isFinite ha]

theorem addCore_of_isInf {onNaN : F32} (ha : isInf a = true) (hb : isInf b = true) :
    addCore onNaN a b = if signBit a = signBit b then a else onNaN := by simp [addCore, ha, hb]

/-- A sum without a NaN operand is a NaN for opposite infinities only. -/
theorem isNaN_addCore_iff {onNaN : F32} (ha : isNaN a = false) (hb : isNaN b = false) (hnan : isNaN onNaN = true) :
    isNaN (addCore onNaN a b) = true ↔ isInf a = true ∧ isInf b = true ∧ signBit a ≠ signBit b := by
  unfold addCore
  split
  · next hinf => by_cases hsign : signBit a = signBit b <;> simp [hsign, hinf, ha, hnan]
  · next hinf =>
    refine iff_of_false ?_ fun ⟨hia, hib, _⟩ => hinf ⟨hia, hib⟩
    split
    · simp [ha]
    split
    · simp [hb]
    split <;> simp

theorem isNaN_fadd_iff (ha : isNaN a = false) (hb : isNaN b = false) :
    isNaN (fadd a b) = true ↔ isInf a = true ∧ isInf b = true ∧ signBit a ≠ signBit b := by
  rw [fadd_of_not_isNaN ha hb, isNaN_addCore_iff ha hb (isNaN_nanOf ..)]

theorem isNaN_fsub_iff (ha : isNaN a = false) (hb : isNaN b = false) :
    isNaN (fsub a b) = true ↔ isInf a = true ∧ isInf b = true ∧ signBit a = signBit b := by
  rw [fsub_of_not_isNaN ha hb, isNaN_addCore_iff ha ((isNaN_fneg b).trans hb) (isNaN_nanOf ..)]
  simp

theorem fmul_of_isInf (ha : isNaN a = false) (hb : isNaN b = false) (hinf : isInf a = true ∨ isInf b = true) :
    fmul a b = if isZero a = true ∨ isZero b = true then nanOf .mul a b else infOf (signBit a != signBit b) := by
  simp [fmul, ha, hb, hinf]

theorem isNaN_fmul_iff (ha : isNaN a = false) (hb : isNaN b = false) :
    isNaN (fmul a b) = true ↔ (isInf a = true ∧ isZero b = true) ∨ (isZero a = true ∧ isInf b = true) := by
  by_cases hinf : isInf a = true ∨ isInf b = true
  · rw [fmul_of_isInf ha hb hinf]
    by_cases hzero : isZero a = true ∨ isZero b = true
    · rw [if_pos hzero, isNaN_nanOf]
      have := @not_isZero_of_isInf a
      have := @not_isZero_of_isInf b
      grind
    · rw [if_neg hzero, isNaN_infOf]
      grind
  · have hround : isNaN (fmul a b) = false := by simp [fmul, ha, hb, hinf]
    rw [hround]
    grind

theorem fdiv_of_isInf_of_isFinite (ha : isInf a = true) (hb : isFinite b = true) :
    fdiv a b = infOf (signBit a != signBit b) := by
  simp [fdiv, ha, not_isNaN_of_isInf ha, not_isNaN_of_isFinite hb, not_isInf_of_isFinite hb]

theorem fdiv_of_isFinite_of_isInf (ha : isFinite a = true) (hb : isInf b = true) :
    fdiv a b = zeroOf (signBit a != signBit b) := by
  simp [fdiv, hb, not_isNaN_of_isInf hb, not_isNaN_of_isFinite ha, not_isInf_of_isFinite ha]

theorem fdiv_of_isInf (ha : isInf a = true) (hb : isInf b = true) : fdiv a b = nanOf .div a b := by
  simp [fdiv, ha, hb, not_isNaN_of_isInf ha, not_isNaN_of_isInf hb]

theorem fdiv_of_isZero (ha : isFinite a = true) (hb : isZero b = true) :
    fdiv a b = if isZero a = true then nanOf .div a b else infOf (signBit a != signBit b) := by
  simp [fdiv, hb, not_isNaN_of_isFinite ha, not_isInf_of_isFinite ha, not_isNaN_of_isFinite (isFinite_of_isZero hb),
    not_isInf_of_isFinite (isFinite_of_isZero hb)]

theorem fdiv_of_not_isZero (ha : isFinite a = true) (hb : isFinite b = true) (hzero : isZero b = false) :
    fdiv a b = roundUnits (signBit a != signBit b) (magUnits a * 2 ^ 149) (magUnits b) := by
  simp [fdiv, hzero, not_isNaN_of_isFinite ha, not_isInf_of_isFinite ha, not_isNaN_of_isFinite hb,
    not_isInf_of_isFinite hb]

theorem isNaN_fdiv_iff (ha : isNaN a = false) (hb : isNaN b = false) :
    isNaN (fdiv a b) = true ↔ (isInf a = true ∧ isInf b = true) ∨ (isZero a = true ∧ isZero b = true) := by
  cases hia : isInf a <;> cases hib : isInf b
  case true.true => simp [fdiv_of_isInf hia hib]
  case true.false =>
    have hfb := isFinite_of_not_isNaN_of_not_isInf hb hib
    simp [fdiv_of_isInf_of_isFinite hia hfb, not_isZero_of_isInf hia]
  case false.true =>
    have hfa := isFinite_of_not_isNaN_of_not_isInf ha hia
    simp [fdiv_of_isFinite_of_isInf hfa hib, not_isZero_of_isInf hib]
  case false.false =>
    have hfa := isFinite_of_not_isNaN_of_not_isInf ha hia
    have hfb := isFinite_of_not_isNaN_of_not_isInf hb hib
    cases hzb : isZero b
    · simp [fdiv_of_not_isZero hfa hfb hzb]
    · cases hza : isZero a <;> simp [fdiv_of_isZero hfa hzb, hza]

theorem isNaN_fsqrt_iff (a : F32) :
    isNaN (fsqrt a) = true ↔ isNaN a = true ∨ (signBit a = true ∧ isZero a = false) := by
  cases hnan : isNaN a <;> simp only [fsqrt, hnan, Bool.false_eq_true, if_true, if_false, isNaN_nanOf, true_or,
    false_or]
  cases hzero : isZero a <;> simp [hnan]
  cases hsign : signBit a <;> simp only [Bool.false_eq_true, if_true, if_false, isNaN_nanOf]
  split <;> simp [hnan]

/-! ### Infinite operands -/

theorem add_sub_of_isInf_of_isFinite (ha : isInf a = true) (hb : isFinite b = true) :
    fadd a b = a ∧ fadd b a = a ∧ fsub a b = a ∧ fsub b a = fneg a := by
  have hna := not_isNaN_of_isInf ha
  have hnb := not_isNaN_of_isFinite hb
  have hfb : isFinite (fneg b) = true := (isFinite_fneg b).trans hb
  have hia : isInf (fneg a) = true := (isInf_fneg a).trans ha
  rw [fadd_of_not_isNaN hna hnb, fadd_of_not_isNaN hnb hna, fsub_of_not_isNaN hna hnb, fsub_of_not_isNaN hnb hna]
  exact ⟨addCore_of_isInf_of_isFinite ha hb, addCore_of_isFinite_of_isInf hb ha, addCore_of_isInf_of_isFinite ha hfb,
    addCore_of_isFinite_of_isInf hb hia⟩

theorem add_sub_of_isInf (ha : isInf a = true) (hb : isInf b = true) :
    (signBit a = signBit b → fadd a b = a) ∧ (signBit a ≠ signBit b → fsub a b = a) := by
  have hna := not_isNaN_of_isInf ha
  have hnb := not_isNaN_of_isInf hb
  have hib : isInf (fneg b) = true := (isInf_fneg b).trans hb
  rw [fadd_of_not_isNaN hna hnb, fsub_of_not_isNaN hna hnb, addCore_of_isInf ha hb, addCore_of_isInf ha hib]
  exact ⟨fun hsign => if_pos hsign, fun hsign => if_pos (by simpa [Bool.eq_not_iff] using hsign)⟩

theorem fmul_of_isInf_of_not_isZero (ha : isInf a = true) (hnan : isNaN b = false) (hzero : isZero b = false) :
    fmul a b = infOf (signBit a != signBit b) ∧ fmul b a = infOf (signBit a != signBit b) := by
  have hna := not_isNaN_of_isInf ha
  have hza := not_isZero_of_isInf ha
  rw [fmul_of_isInf hna hnan (.inl ha), fmul_of_isInf hnan hna (.inr ha)]
  simp [hza, hzero, bne_comm]

theorem fsqrt_infinity : fsqrt (infOf false) = infOf false := by
  rw [fsqrt, if_neg (by decide), if_neg (by decide), if_neg (by decide), if_pos (by decide)]

end

/-- Settles O52: a NaN operand split off, then the kinds of the operands. -/
theorem exceptionalResultsAreIEEE : Obligations.ExceptionalResultsAreIEEE := fun a b =>
  ⟨isNaN_iff_of_operands isNaN_fadd_of_isNaN isNaN_fadd_iff,
    isNaN_iff_of_operands isNaN_fsub_of_isNaN isNaN_fsub_iff,
    isNaN_iff_of_operands isNaN_fmul_of_isNaN isNaN_fmul_iff,
    isNaN_iff_of_operands isNaN_fdiv_of_isNaN isNaN_fdiv_iff, isNaN_fsqrt_iff a, add_sub_of_isInf_of_isFinite,
    add_sub_of_isInf, fmul_of_isInf_of_not_isZero,
    fun ha hb => ⟨fdiv_of_isInf_of_isFinite ha hb,
      (fdiv_of_isFinite_of_isInf hb ha).trans (by rw [bne_comm])⟩,
    fun ha hza hb => (fdiv_of_isZero ha hb).trans (if_neg (by simp [hza])), by rintro rfl; exact fsqrt_infinity⟩

end Sys2Proof.Proofs.Exceptional
end

section
/-! PROOF. Comparisons, conversions and clamping, and the functions the build leaves open (00_scope.md R11 to R16;
41_cic.md R163).

Both comparisons are comparisons of the places `orderOf` gives; a datum is its sign and its magnitude, so an extreme
place has one datum. -/

namespace Sys2Proof.Proofs.Comparisons

open Sys2Proof.Machine
open Sys2Proof.Proofs.Rounding
open Sys2Proof.Proofs.Exceptional

/-! ### A datum is its sign and its magnitude -/

theorem ofSignMag_signBit_magBits (a : F32) : ofSignMag (signBit a) (magBits a) = a := by
  apply BitVec.eq_of_toNat_eq
  have hlt := a.isLt
  rw [ofSignMag, BitVec.toNat_ofNat, signBit, magBits, BitVec.msb_eq_decide]
  simp only [decide_eq_true_eq]
  split <;> omega

theorem eq_infOf_of_isInf {a : F32} (h : isInf a = true) : a = infOf (signBit a) := by
  rw [isInf, decide_eq_true_eq] at h
  rw [infOf, ← h, ofSignMag_signBit_magBits]

theorem eq_zeroOf_of_isZero {a : F32} (h : isZero a = true) : a = zeroOf (signBit a) := by
  rw [isZero, decide_eq_true_eq] at h
  rw [zeroOf, ← h, ofSignMag_signBit_magBits]

/-! ### Places -/

section
variable {a b lo hi : F32}

theorem flt_iff_orderOf :
    flt a b = true ↔ isNaN a = false ∧ isNaN b = false ∧ Machine.orderOf a < Machine.orderOf b := by
  simp [flt, and_assoc]

theorem fle_iff_orderOf :
    fle a b = true ↔ isNaN a = false ∧ isNaN b = false ∧ Machine.orderOf a ≤ Machine.orderOf b := by
  simp [fle, and_assoc]

theorem orderOf_infOf (neg : Bool) : Machine.orderOf (infOf neg) = if neg then -0x7F800000 else 0x7F800000 := by
  cases neg <;> decide

theorem orderOf_infOf_false : Machine.orderOf (infOf false) = 0x7F800000 := orderOf_infOf false

theorem orderOf_infOf_true : Machine.orderOf (infOf true) = -0x7F800000 := orderOf_infOf true

theorem orderOf_bounds (h : isNaN a = false) : -0x7F800000 ≤ Machine.orderOf a ∧ Machine.orderOf a ≤ 0x7F800000 := by
  simp only [isNaN, decide_eq_false_iff_not] at h
  unfold Machine.orderOf
  split <;> omega

theorem orderOf_bounds_of_isFinite (h : isFinite a = true) :
    -0x7F800000 < Machine.orderOf a ∧ Machine.orderOf a < 0x7F800000 := by
  simp only [isFinite, decide_eq_true_eq] at h
  unfold Machine.orderOf
  split <;> omega

/-- Only the infinities stand at the ends. -/
theorem eq_infOf_of_orderOf (neg : Bool) (h : Machine.orderOf a = Machine.orderOf (infOf neg)) : a = infOf neg := by
  rw [orderOf_infOf, orderOf_eq] at h
  have hmag : magBits a = 0x7F800000 ∧ signBit a = neg := by
    cases neg <;> cases hs : signBit a <;> simp [hs] at h ⊢ <;> omega
  rw [← ofSignMag_signBit_magBits a, hmag.1, hmag.2, infOf]

theorem comparisons_with_infinities (h : isFinite a = true) :
    flt a (infOf false) = true ∧ fle a (infOf false) = true ∧ flt (infOf true) a = true ∧ fle (infOf true) a = true ∧
    flt (infOf false) a = false ∧ fle (infOf false) a = false ∧ flt a (infOf true) = false ∧
    fle a (infOf true) = false := by
  have hnan := not_isNaN_of_isFinite h
  obtain ⟨hlow, hhigh⟩ := orderOf_bounds_of_isFinite h
  simp only [← Bool.not_eq_true, flt_iff_orderOf, fle_iff_orderOf, isNaN_infOf, hnan, orderOf_infOf_false,
    orderOf_infOf_true, true_and]
  omega

/-! ### Sign operations and conversions -/

theorem isNaN_fabs (a : F32) : isNaN (fabs a) = isNaN a := by rw [isNaN, isNaN, magBits_fabs]

theorem isFinite_fabs (a : F32) : isFinite (fabs a) = isFinite a := by rw [isFinite, isFinite, magBits_fabs]

theorem getLsbD_fneg (a : F32) :
    (fneg a).getLsbD 31 = !a.getLsbD 31 ∧ ∀ k < 31, (fneg a).getLsbD k = a.getLsbD k := by
  have hbit : ∀ k < 31, (0x80000000#32).getLsbD k = false := by decide
  exact ⟨by simp [fneg], fun k hk => by rw [fneg, BitVec.getLsbD_xor, hbit k hk, Bool.xor_false]⟩

theorem getLsbD_fabs (a : F32) : (fabs a).getLsbD 31 = false ∧ ∀ k < 31, (fabs a).getLsbD k = a.getLsbD k := by
  have hbit : ∀ k < 31, (0x7FFFFFFF#32).getLsbD k = true := by decide
  exact ⟨by simp [fabs], fun k hk => by rw [fabs, BitVec.getLsbD_and, hbit k hk, Bool.and_true]⟩

theorem valueOf_i2f_int {n : Int} (h : n.natAbs < 2 ^ 24) : isFinite (i2f n) = true ∧ valueOf (i2f n) = n := by
  obtain ⟨a, hfin, hval⟩ := exists_datum h
  rcases Int.natAbs_eq n with hn | hn
  · have := valueOf_i2f h
    rwa [← hn, ← Int.cast_natCast, ← hn] at this
  · have hdatum : valueOf (fneg a) = n := by rw [valueOf_fneg, hval, hn]; simp
    have hround := rounded_i2f n
    rw [← hdatum] at hround
    rw [← hdatum]
    exact hround.valueOf_eq ((isFinite_fneg a).trans hfin)

/-! ### Clamping -/

theorem clampF_of_isNaN (h : isNaN a = true) : clampF a lo hi = a := by simp [clampF, flt, h]

theorem clampF_of_flt_low (h : flt a lo = true) : clampF a lo hi = lo := if_pos h

theorem clampF_of_flt_high (hle : fle lo hi = true) (h : flt hi a = true) : clampF a lo hi = hi := by
  have hlow : ¬ flt a lo = true := by
    rw [flt_iff_orderOf] at h ⊢
    rw [fle_iff_orderOf] at hle
    omega
  rw [clampF, if_neg hlow, if_pos h]

theorem clampF_of_between (hlow : fle lo a = true) (hhigh : fle a hi = true) : clampF a lo hi = a := by
  rw [fle_iff_orderOf] at hlow hhigh
  rw [clampF, if_neg (by rw [flt_iff_orderOf]; omega), if_neg (by rw [flt_iff_orderOf]; omega)]

theorem clampF_bounds (hle : fle lo hi = true) (h : isNaN a = false) :
    fle lo (clampF a lo hi) = true ∧ fle (clampF a lo hi) hi = true := by
  obtain ⟨hlo, hhi, horder⟩ := fle_iff_orderOf.mp hle
  unfold clampF
  split
  · exact ⟨fle_iff_orderOf.mpr ⟨hlo, hlo, le_rfl⟩, hle⟩
  split
  · exact ⟨hle, fle_iff_orderOf.mpr ⟨hhi, hhi, le_rfl⟩⟩
  · next hlow hhigh =>
    rw [flt_iff_orderOf] at hlow hhigh
    simp only [fle_iff_orderOf, h, hlo, hhi, true_and] at hlow hhigh ⊢
    omega

/-- An infinity is clamped to the bound on its side, also when that bound is the infinity itself. -/
theorem clampF_infOf (hle : fle lo hi = true) :
    clampF (infOf true) lo hi = lo ∧ clampF (infOf false) lo hi = hi := by
  obtain ⟨hlow, -⟩ := clampF_bounds hle (isNaN_infOf true)
  obtain ⟨-, hhigh⟩ := clampF_bounds hle (isNaN_infOf false)
  obtain ⟨hlo, hhi, horder⟩ := fle_iff_orderOf.mp hle
  have hlo' := orderOf_bounds hlo
  have hhi' := orderOf_bounds hhi
  constructor
  · rcases hlo'.1.lt_or_eq with hlt | heq
    · exact clampF_of_flt_low (flt_iff_orderOf.mpr ⟨isNaN_infOf _, hlo, orderOf_infOf_true ▸ hlt⟩)
    · obtain rfl := eq_infOf_of_orderOf true (orderOf_infOf_true ▸ heq.symm)
      exact clampF_of_between (fle_iff_orderOf.mpr ⟨hlo, hlo, le_rfl⟩) hle
  · rcases hhi'.2.lt_or_eq with hlt | heq
    · exact clampF_of_flt_high hle (flt_iff_orderOf.mpr ⟨hhi, isNaN_infOf _, orderOf_infOf_false ▸ hlt⟩)
    · obtain rfl := eq_infOf_of_orderOf false (orderOf_infOf_false ▸ heq)
      exact clampF_of_between hle (fle_iff_orderOf.mpr ⟨hhi, hhi, le_rfl⟩)

theorem fMONE_fle_fONE : fle fMONE fONE = true := by decide

theorem sanitize_of_not_isNaN (h : isNaN a = false) : sanitize a = clampF a fMONE fONE := by simp [sanitize, h]

theorem sanitize_bounds (a : F32) : fle fMONE (sanitize a) = true ∧ fle (sanitize a) fONE = true := by
  cases hnan : isNaN a
  · rw [sanitize_of_not_isNaN hnan]
    exact clampF_bounds fMONE_fle_fONE hnan
  · rw [sanitize, if_pos hnan]
    decide

end

/-- Settles O53: the order of the places, the conversions, and clamping case by case. -/
theorem comparisonsAndConversionsAreExact : Obligations.ComparisonsAndConversionsAreExact := by
  refine ⟨fun a b ha hb => ⟨flt_iff ha hb, fle_iff ha hb⟩, fun a b hnan => ?_, fun a => comparisons_with_infinities,
    by decide, fun a ha => ?_, fun a => ?_, fun n => valueOf_i2f_int, fun a lo hi hle => ?_, fun a => ?_⟩
  · rcases hnan with h | h <;> simp [flt, fle, h]
  · exact ⟨(isFinite_fneg a).trans ha, valueOf_fneg a, (isFinite_fabs a).trans ha, valueOf_fabs a, f2iFloor_eq ha⟩
  · obtain ⟨hneg, hnegs⟩ := getLsbD_fneg a
    obtain ⟨habs, habss⟩ := getLsbD_fabs a
    exact ⟨isNaN_fneg a, isNaN_fabs a, hneg, habs, fun k hk => ⟨hnegs k hk, habss k hk⟩⟩
  · obtain ⟨hlow, hhigh⟩ := clampF_infOf hle
    exact ⟨clampF_of_isNaN, clampF_of_flt_low, clampF_of_flt_high hle, hlow, hhigh, clampF_bounds hle,
      clampF_of_between⟩
  · obtain ⟨hlow, hhigh⟩ := sanitize_bounds a
    refine ⟨fun h => if_pos h, hlow, hhigh, fun h => ?_, fun h => ?_, fun hle hge => ?_⟩
    · rw [sanitize_of_not_isNaN (flt_iff_orderOf.mp h).1, clampF_of_flt_low h]
    · obtain ⟨-, hnan, -⟩ := flt_iff_orderOf.mp h
      rw [sanitize_of_not_isNaN hnan, clampF_of_flt_high fMONE_fle_fONE h]
    · obtain ⟨-, hnan, -⟩ := fle_iff_orderOf.mp hle
      rw [sanitize_of_not_isNaN hnan, clampF_of_between hle hge]

/-! ### The functions the build leaves open -/

/-- Finite and of magnitude at most one. -/
abbrev InUnit (v : F32) : Prop := isFinite v = true ∧ fle (fabs v) fONE = true

theorem inUnit_fONE : InUnit fONE := by decide

theorem inUnit_fZERO : InUnit fZERO := by decide

theorem inUnit_fMONE : InUnit fMONE := by decide

theorem inUnit_heldToUnit (v : F32) : InUnit (heldToUnit v) := by
  unfold heldToUnit
  split
  · next hle => exact ⟨((within_iff_fle_fabs (by decide)).mpr hle).finite, hle⟩
  · exact inUnit_fZERO

/-- The replacement keeps the exponent of a NaN and a fraction below 2^22, but not zero. -/
theorem isNaN_heldToNaN (v : F32) : isNaN (heldToNaN v) = true := by
  unfold heldToNaN
  split
  · assumption
  · have hmask : (v.toNat &&& 0x803FFFFF) % 2 ^ 31 ≤ 0x3FFFFF := by
      rw [Nat.and_mod_two_pow]
      exact Nat.and_le_right
    have hbits : magBits (0x7F800001#32 + (v &&& 0x803FFFFF#32)) =
        0x7F800001 + (v.toNat &&& 0x803FFFFF) % 2 ^ 31 := by
      rw [magBits, BitVec.toNat_add, BitVec.toNat_and, show (0x803FFFFF#32).toNat = 0x803FFFFF from rfl,
        show (0x7F800001#32).toNat = 0x7F800001 from rfl]
      omega
    rw [isNaN, hbits, decide_eq_true_eq]
    omega

theorem inUnit_of_isZero {a : F32} (h : isZero a = true) : InUnit a := by
  rw [eq_zeroOf_of_isZero h]
  cases signBit a <;> decide

theorem inUnit_fcos {a : F32} (h : isFinite a = true) : InUnit (fcos a) := by
  unfold fcos
  split
  · exact inUnit_fONE
  · exact inUnit_heldToUnit _

theorem inUnit_fsin {a : F32} (h : isFinite a = true) : InUnit (fsin a) := by
  unfold fsin
  split
  · next hzero => exact inUnit_of_isZero hzero
  · exact inUnit_heldToUnit _

theorem isNaN_fcos_fsin {a : F32} (h : isFinite a = false) : isNaN (fcos a) = true ∧ isNaN (fsin a) = true := by
  have hzero : isZero a ≠ true := fun hz => absurd (isFinite_of_isZero hz) (by simp [h])
  have hfin : isFinite a ≠ true := by simp [h]
  rw [fcos, fsin, if_neg hzero, if_neg hfin, if_neg hzero, if_neg hfin]
  exact ⟨isNaN_heldToNaN _, isNaN_heldToNaN _⟩

theorem inUnit_locos (p : Word) : InUnit (locos p) := by
  unfold locos
  split_ifs
  exacts [inUnit_fONE, inUnit_fZERO, inUnit_fMONE, inUnit_fZERO, inUnit_heldToUnit _]

theorem inUnit_losin (p : Word) : InUnit (losin p) := by
  unfold losin
  split_ifs
  exacts [inUnit_fZERO, inUnit_fONE, inUnit_fZERO, inUnit_fMONE, inUnit_heldToUnit _]

theorem design_legal (tapsMax : Nat) (rate : Word) (r : BitVec 16) (pass stop : Word) :
    (design tapsMax rate r pass stop).elim True fun taps =>
      1 ≤ taps.length ∧ taps.length ≤ tapsMax ∧ ∀ v ∈ taps, isFinite v = true := by
  rcases hd : design tapsMax rate r pass stop with _ | taps
  · trivial
  · obtain ⟨-, -, hlegal⟩ := design_eq_some hd
    simpa [legalTaps] using hlegal

/-- Settles O36: the anchors are written values, and every other result is held to what it must be. -/
theorem openFunctionsKeepTheirRequirements : Obligations.OpenFunctionsKeepTheirRequirements := by
  refine ⟨by decide, fun a ha => ?_, fun a => isNaN_fcos_fsin, by decide, fun p => ?_,
    fun tapsMax rate r pass stop => ⟨fun h => if_pos (.inl h), fun h => if_pos (.inr h),
      design_legal tapsMax rate r pass stop⟩⟩
  · obtain ⟨hfc, hlc⟩ := inUnit_fcos ha
    obtain ⟨hfs, hls⟩ := inUnit_fsin ha
    exact ⟨hfc, hlc, hfs, hls⟩
  · obtain ⟨hfc, hlc⟩ := inUnit_locos p
    obtain ⟨hfs, hls⟩ := inUnit_losin p
    exact ⟨hfc, hlc, hfs, hls⟩

end Sys2Proof.Proofs.Comparisons
end

section
/-! PROOF. The operations are correctly rounded: to the nearest datum, ties to even, an infinity from the overflow
threshold on (00_scope.md R9).

The exact magnitude `x` lies between two neighbouring data, and rounding compares it with the middle of the two. A
fraction `n / d` may stand in for `x` when the two lie on the same side of every half quantum: so it does for its own
value, and so does the integer root with its sticky half for the root. -/

namespace Sys2Proof.Proofs.CorrectRounding

open Sys2Proof.Machine
open Sys2Proof.Proofs.Rounding
open Sys2Proof.Proofs.Exceptional
open Sys2Proof.Proofs.Comparisons

/-! ### Between two neighbours -/

/-- `n / d` and the real `x` lie on the same side of every multiple of half a quantum. -/
def StandsFor (n d : Nat) (x : ℝ) : Prop :=
  ∀ k : Nat, (d * 2 ^ quantumExp n d * k < 2 * n ↔ (2 : ℝ) ^ quantumExp n d * k < 2 * x) ∧
    (2 * n < d * 2 ^ quantumExp n d * k ↔ 2 * x < (2 : ℝ) ^ quantumExp n d * k)

theorem standsFor_ratio (n : Nat) {d : Nat} (hd : 0 < d) : StandsFor n d (n / d) := by
  intro k
  have hd' : (0 : ℝ) < d := by exact_mod_cast hd
  rw [← mul_div_assoc, lt_div_iff₀ hd', div_lt_iff₀ hd', mul_right_comm _ (k : ℝ), mul_comm _ (d : ℝ)]
  constructor <;> norm_cast

/-- `b` and its successor are the magnitudes around `x`, and `r` is the nearer, or the even one of two as near. -/
structure Chosen (b r : Nat) (x : ℝ) : Prop where
  low : (unitsOfBits b : ℝ) ≤ x
  high : x < unitsOfBits (b + 1)
  choice :
    r = b ∧ 2 * x ≤ unitsOfBits b + unitsOfBits (b + 1) ∧ (2 * x = unitsOfBits b + unitsOfBits (b + 1) → b % 2 = 0) ∨
    r = b + 1 ∧ unitsOfBits b + unitsOfBits (b + 1) ≤ 2 * x ∧
      (2 * x = unitsOfBits b + unitsOfBits (b + 1) → b % 2 = 1)

section
variable {n d : Nat} {x : ℝ}

/-- With `m` whole quanta and a rest, `x` lies within quantum `m`, on the side of its middle that the rest says. -/
theorem StandsFor.place (h : StandsFor n d x) {m rest : Nat} (hsplit : d * 2 ^ quantumExp n d * m + rest = n)
    (hrest : rest < d * 2 ^ quantumExp n d) :
    (2 : ℝ) ^ quantumExp n d * m ≤ x ∧ x < (2 : ℝ) ^ quantumExp n d * (m + 1) ∧
    ((2 : ℝ) ^ quantumExp n d * (2 * m + 1) < 2 * x ↔ d * 2 ^ quantumExp n d < 2 * rest) ∧
    (2 * x < (2 : ℝ) ^ quantumExp n d * (2 * m + 1) ↔ 2 * rest < d * 2 ^ quantumExp n d) := by
  have htwice : 2 * n = d * 2 ^ quantumExp n d * (2 * m) + 2 * rest := by
    rw [Nat.mul_left_comm]; omega
  have hbelow : ¬ 2 * x < 2 ^ quantumExp n d * (2 * m : Nat) := by rw [← (h (2 * m)).2]; omega
  have habove : 2 * x < 2 ^ quantumExp n d * (2 * m + 2 : Nat) := by rw [← (h (2 * m + 2)).2, Nat.mul_add]; omega
  have hup : 2 ^ quantumExp n d * (2 * m + 1 : Nat) < 2 * x ↔ d * 2 ^ quantumExp n d < 2 * rest := by
    rw [← (h (2 * m + 1)).1, Nat.mul_add]; omega
  have hdown : 2 * x < 2 ^ quantumExp n d * (2 * m + 1 : Nat) ↔ 2 * rest < d * 2 ^ quantumExp n d := by
    rw [← (h (2 * m + 1)).2, Nat.mul_add]; omega
  push_cast at hbelow habove hup hdown
  exact ⟨by linarith, by linarith, hup, hdown⟩

/-- Rounding chooses between the neighbours, and only then stops at the infinity. -/
theorem chosen_roundBits (hd : 0 < d) (h : StandsFor n d x) :
    ∃ b r, Chosen b r x ∧ roundBits n d = min 0x7F800000 r := by
  obtain ⟨hm, hq⟩ := quanta_of_quantumExp n d
  have hstep : 0 < d * 2 ^ quantumExp n d := Nat.mul_pos hd (Nat.two_pow_pos _)
  obtain ⟨hlow, hhigh, hup, hdown⟩ := h.place (Nat.div_add_mod n _) (Nat.mod_lt n hstep)
  have hround : roundBits n d = min 0x7F800000 (quantumExp n d * 2 ^ 23 +
      if d * 2 ^ quantumExp n d < 2 * (n % (d * 2 ^ quantumExp n d)) ∨
          2 * (n % (d * 2 ^ quantumExp n d)) = d * 2 ^ quantumExp n d ∧ n / (d * 2 ^ quantumExp n d) % 2 = 1
        then n / (d * 2 ^ quantumExp n d) + 1 else n / (d * 2 ^ quantumExp n d)) := rfl
  have hbits := unitsOfBits_quanta hm.le hq
  have hnext := unitsOfBits_quanta (q := quantumExp n d) (m := n / (d * 2 ^ quantumExp n d) + 1) hm (by omega)
  generalize n / (d * 2 ^ quantumExp n d) = m at *
  generalize n % (d * 2 ^ quantumExp n d) = rest at *
  generalize quantumExp n d = q at *
  have hbits : (unitsOfBits (q * 2 ^ 23 + m) : ℝ) = 2 ^ q * m := by rw [hbits]; push_cast; ring
  have hnext : (unitsOfBits (q * 2 ^ 23 + m + 1) : ℝ) = 2 ^ q * (m + 1) := by
    rw [Nat.add_assoc, hnext]; push_cast; ring
  refine ⟨q * 2 ^ 23 + m, _, ⟨by rwa [hbits], by rwa [hnext], ?_⟩, hround⟩
  rw [hbits, hnext]
  split
  · refine .inr ⟨(Nat.add_assoc ..).symm, ?_, fun htie => ?_⟩
    · by_contra hlt
      have := hdown.mp (by linarith)
      omega
    · have := mt hup.mpr (by linarith)
      omega
  · refine .inl ⟨rfl, ?_, fun htie => ?_⟩
    · by_contra hlt
      have := hup.mp (by linarith)
      omega
    · have hno := mt hup.mpr (by linarith)
      have hno' := mt hdown.mpr (by linarith)
      omega

variable {b r : Nat}

/-- No magnitude is nearer than the chosen one, and one as near leaves the chosen one even. -/
theorem Chosen.nearest (h : Chosen b r x) (c : Nat) :
    |(unitsOfBits r : ℝ) - x| ≤ |(unitsOfBits c : ℝ) - x| ∧
      (|(unitsOfBits c : ℝ) - x| = |(unitsOfBits r : ℝ) - x| → unitsOfBits c ≠ unitsOfBits r → r % 2 = 0) := by
  obtain ⟨hlow, hhigh, hchoice⟩ := h
  have hmono := unitsOfBits_strictMono.monotone
  have hnear : |(unitsOfBits b : ℝ) - x| = x - unitsOfBits b := by rw [abs_sub_comm, abs_of_nonneg (by linarith)]
  have hnext : |(unitsOfBits (b + 1) : ℝ) - x| = unitsOfBits (b + 1) - x := abs_of_nonneg (by linarith)
  rcases Nat.lt_or_ge b c with hc | hc
  · have hle : (unitsOfBits (b + 1) : ℝ) ≤ unitsOfBits c := by exact_mod_cast hmono hc
    rw [abs_of_nonneg (a := (unitsOfBits c : ℝ) - x) (by linarith)]
    rcases hchoice with ⟨rfl, hmid, htie⟩ | ⟨rfl, hmid, -⟩
    · rw [hnear]
      exact ⟨by linarith, fun heq _ => htie (by linarith)⟩
    · rw [hnext]
      exact ⟨by linarith, fun heq hne => absurd (Nat.cast_injective (R := ℝ) (by linarith)) hne⟩
  · have hle : (unitsOfBits c : ℝ) ≤ unitsOfBits b := by exact_mod_cast hmono hc
    rw [abs_sub_comm (unitsOfBits c : ℝ), abs_of_nonneg (a := x - unitsOfBits c) (by linarith)]
    rcases hchoice with ⟨rfl, hmid, -⟩ | ⟨rfl, hmid, htie⟩
    · rw [hnear]
      exact ⟨by linarith, fun heq hne => absurd (Nat.cast_injective (R := ℝ) (by linarith)) hne⟩
    · rw [hnext]
      refine ⟨by linarith, fun heq _ => ?_⟩
      have := htie (by linarith)
      omega

/-! ### The overflow threshold -/

/-- The overflow threshold in units: the middle between the largest finite magnitude and the next. -/
theorem twice_overflow :
    (unitsOfBits 0x7F7FFFFF : ℝ) + unitsOfBits 0x7F800000 = 2 * ((overflowAt : ℝ) * 2 ^ 149) ∧
      unitsOfBits 0x7F7FFFFF < unitsOfBits 0x7F800000 := by
  have hlast : unitsOfBits 0x7F7FFFFF = 16777215 * 2 ^ 253 := by decide +kernel
  have hinf : unitsOfBits 0x7F800000 = 16777216 * 2 ^ 253 := by decide +kernel
  rw [hlast, hinf, overflowAt]
  norm_num

theorem Chosen.overflow_iff (h : Chosen b r x) : 0x7F800000 ≤ r ↔ (overflowAt : ℝ) * 2 ^ 149 ≤ x := by
  obtain ⟨hlow, hhigh, hchoice⟩ := h
  obtain ⟨hsum, hlt⟩ := twice_overflow
  have hlt : (unitsOfBits 0x7F7FFFFF : ℝ) < unitsOfBits 0x7F800000 := by exact_mod_cast hlt
  have hmono := unitsOfBits_strictMono.monotone
  rcases Nat.lt_trichotomy b 0x7F7FFFFF with hb | rfl | hb
  · have hle : (unitsOfBits (b + 1) : ℝ) ≤ unitsOfBits 0x7F7FFFFF := by exact_mod_cast hmono hb
    exact iff_of_false (by omega) (by linarith)
  · rcases hchoice with ⟨rfl, hmid, htie⟩ | ⟨rfl, hmid, -⟩
    · refine iff_of_false (by omega) fun hover => ?_
      have := htie (by linarith)
      omega
    · exact iff_of_true le_rfl (by linarith)
  · have hle : (unitsOfBits 0x7F800000 : ℝ) ≤ unitsOfBits b := by exact_mod_cast hmono hb
    exact iff_of_true (by omega) (by linarith)

end

/-! ### Data -/

theorem eq_of_signBit_of_magBits {a b : F32} (hsign : signBit a = signBit b) (hmag : magBits a = magBits b) :
    a = b := by
  rw [← ofSignMag_signBit_magBits a, ← ofSignMag_signBit_magBits b, hsign, hmag]

theorem magBits_roundUnits (neg : Bool) (n d : Nat) : magBits (roundUnits neg n d) = roundBits n d :=
  magBits_ofSignMag neg (by have := roundBits_le n d; omega)

theorem fneg_roundUnits (neg : Bool) (n d : Nat) : fneg (roundUnits neg n d) = roundUnits (!neg) n d :=
  eq_of_signBit_of_magBits (by simp) (by rw [magBits_fneg, magBits_roundUnits, magBits_roundUnits])

theorem fneg_fneg (a : F32) : fneg (fneg a) = a := eq_of_signBit_of_magBits (by simp) (by simp)

theorem abs_valueOf_sub (a : F32) (x : ℝ) : |(valueOf a : ℝ) - x / 2 ^ 149| = |(units a : ℝ) - x| / 2 ^ 149 := by
  rw [valueOf, Rat.cast_div, Rat.cast_intCast, Rat.cast_pow, Rat.cast_ofNat, div_sub_div_same, abs_div,
    abs_of_pos (a := (2 : ℝ) ^ 149) (by positivity)]

/-- A datum below zero is no nearer to `x` than zero is. -/
theorem Chosen.nearest_units {b r : Nat} {x : ℝ} (h : Chosen b r x) (z : F32) :
    |(unitsOfBits r : ℝ) - x| ≤ |(units z : ℝ) - x| ∧
      (|(units z : ℝ) - x| = |(unitsOfBits r : ℝ) - x| → units z ≠ unitsOfBits r → r % 2 = 0) := by
  have hx : 0 ≤ x := (Nat.cast_nonneg _).trans h.low
  rw [units_eq]
  cases signBit z
  · simpa using h.nearest (magBits z)
  · obtain ⟨hle, htie⟩ := h.nearest 0
    have hz : (0 : ℝ) ≤ unitsOfBits (magBits z) := Nat.cast_nonneg _
    have habs : |((signed true (unitsOfBits (magBits z)) : Int) : ℝ) - x| = unitsOfBits (magBits z) + x := by
      rw [signed_true, Int.cast_neg, Int.cast_natCast, ← neg_add', abs_neg, abs_of_nonneg (by linarith)]
    rw [unitsOfBits_zero, Nat.cast_zero, zero_sub, abs_neg, abs_of_nonneg hx] at hle htie
    rw [habs]
    refine ⟨by linarith, fun heq hne => htie (by linarith) fun hr => hne ?_⟩
    have hzero : (unitsOfBits (magBits z) : ℝ) = 0 := by linarith
    rw [← hr, signed_true, Nat.cast_eq_zero.mp hzero]
    rfl

theorem roundsTo_roundUnits_pos {n d : Nat} {x : ℝ} (hd : 0 < d) (h : StandsFor n d x) :
    RoundsTo (roundUnits false n d) (x / 2 ^ 149) := by
  obtain ⟨b, r, hchosen, hround⟩ := chosen_roundBits hd h
  have hx : 0 ≤ x := (Nat.cast_nonneg _).trans hchosen.low
  have hover : (0 : ℝ) < overflowAt := by norm_num [overflowAt]
  have hiff := hchosen.overflow_iff
  rw [← le_div_iff₀ (by positivity)] at hiff
  have hdiv : 0 ≤ x / 2 ^ 149 := by positivity
  refine ⟨fun hge => ?_, fun hle => by linarith, fun hlt => ?_⟩
  · rw [roundUnits, hround, min_eq_left (hiff.mpr hge), infOf]
  · rw [abs_of_nonneg hdiv, ← not_le, ← hiff] at hlt
    rw [min_eq_right (by omega)] at hround
    have hmag := (magBits_roundUnits false n d).trans hround
    have hunits : units (roundUnits false n d) = unitsOfBits r := by rw [units_roundUnits, hround, signed_false]
    refine ⟨by rw [isFinite, hmag, decide_eq_true_eq]; omega, fun _ => signBit_roundUnits .., fun hneg => by linarith,
      fun z _ => ?_⟩
    obtain ⟨hnear, htie⟩ := hchosen.nearest_units z
    rw [abs_valueOf_sub, abs_valueOf_sub, hunits, hmag, div_le_div_iff_of_pos_right (by positivity),
      div_left_inj' (by positivity)]
    refine ⟨by exact_mod_cast hnear, fun heq hne => htie (by exact_mod_cast heq) fun hu => hne ?_⟩
    rw [valueOf, valueOf, hunits, hu]

theorem roundsTo_fneg {r : F32} {x : ℝ} (h : RoundsTo r x) : RoundsTo (fneg r) (-x) := by
  obtain ⟨hpos, hneg, hfin⟩ := h
  refine ⟨fun hge => by rw [hneg (by linarith)]; rfl, fun hle => by rw [hpos (by linarith)]; rfl, fun hlt => ?_⟩
  obtain ⟨hf, hs, hs', hnear⟩ := hfin (by rwa [abs_neg] at hlt)
  have hdist (z : F32) : |(valueOf (fneg z) : ℝ) - x| = |(valueOf z : ℝ) - -x| := by
    rw [valueOf_fneg, Rat.cast_neg, ← abs_neg]
    ring_nf
  have hdist' : |(valueOf (fneg r) : ℝ) - -x| = |(valueOf r : ℝ) - x| := by rw [← hdist, fneg_fneg]
  refine ⟨(isFinite_fneg r).trans hf, fun hx => by rw [signBit_fneg, hs' (by linarith)]; rfl,
    fun hx => by rw [signBit_fneg, hs (by linarith)]; rfl, fun z hz => ?_⟩
  obtain ⟨hle, htie⟩ := hnear (fneg z) ((isFinite_fneg z).trans hz)
  rw [hdist] at hle htie
  rw [hdist', magBits_fneg]
  refine ⟨hle, fun heq hne => htie heq fun hval => hne ?_⟩
  rw [valueOf_fneg, ← hval, valueOf_fneg, neg_neg]

theorem roundsTo_of_rounded {r : F32} {x : ℚ} (h : Rounded r x) : RoundsTo r x := by
  obtain ⟨neg, n, d, hd, rfl, rfl⟩ := h
  have hround := roundsTo_roundUnits_pos hd (standsFor_ratio n hd)
  cases neg
  · simpa using hround
  · have := roundsTo_fneg hround
    rw [fneg_roundUnits] at this
    simpa [neg_div] using this

/-! ### The operations -/

theorem magUnits_eq_zero_iff (a : F32) : magUnits a = 0 ↔ isZero a = true := by
  rw [magUnits_eq, ← unitsOfBits_zero, unitsOfBits_strictMono.injective.eq_iff, isZero, decide_eq_true_eq]

theorem roundUnits_zero (neg : Bool) {d : Nat} (hd : 0 < d) : roundUnits neg 0 d = zeroOf neg := by
  rw [roundUnits, Nat.le_zero.mp (roundBits_le_of_le (b := 0) hd (Nat.zero_le _)), zeroOf]

theorem zeroOf_spec (neg : Bool) : isZero (zeroOf neg) = true ∧ signBit (zeroOf neg) = neg := by
  cases neg <;> decide

theorem signed_mul (neg : Bool) (n m : Nat) : signed neg (n * m) = signed neg n * m := by
  cases neg <;> simp

theorem signed_div (n d : Nat) (sa sb : Bool) :
    (signed (sa != sb) n : ℚ) / d = (signed sa n : ℚ) / (signed sb d : ℚ) := by
  cases sa <;> cases sb <;> simp [neg_div, div_neg]

section
variable {a b : F32} (ha : isFinite a = true) (hb : isFinite b = true)
include ha hb

theorem rounded_fdiv (hzero : isZero b = false) : Rounded (fdiv a b) (valueOf a / valueOf b) := by
  have hpos : 0 < magUnits b := Nat.pos_of_ne_zero fun h => by simp [(magUnits_eq_zero_iff b).mp h] at hzero
  refine ⟨_, _, _, hpos, fdiv_of_not_isZero ha hb hzero, ?_⟩
  rw [valueOf, valueOf, div_div_div_cancel_right₀ (by positivity), units_eq, units_eq, ← magUnits_eq, ← magUnits_eq,
    signed_div, eq_div_iff (by positivity), div_mul_eq_mul_div]
  rw [signed_mul]
  push_cast
  rfl

theorem addCore_of_exact_zero (onNaN : F32) (hsum : units a + units b = 0) :
    addCore onNaN a b = zeroOf (signBit a && signBit b) := by
  simp [addCore, not_isInf_of_isFinite ha, not_isInf_of_isFinite hb, hsum]

theorem fadd_of_exact_zero (hsum : valueOf a + valueOf b = 0) : fadd a b = zeroOf (signBit a && signBit b) := by
  have hunits : units a + units b = 0 := by
    rw [valueOf, valueOf, ← add_div, div_eq_zero_iff, or_iff_left (by positivity)] at hsum
    exact_mod_cast hsum
  rw [fadd_of_not_isNaN (not_isNaN_of_isFinite ha) (not_isNaN_of_isFinite hb),
    addCore_of_exact_zero ha hb _ hunits]

theorem fsub_of_exact_zero (hdiff : valueOf a - valueOf b = 0) : fsub a b = zeroOf (signBit a && !signBit b) := by
  have hunits : units a + units (fneg b) = 0 := by
    rw [valueOf, valueOf, ← sub_div, div_eq_zero_iff, or_iff_left (by positivity)] at hdiff
    rw [units_fneg, ← sub_eq_add_neg]
    exact_mod_cast hdiff
  rw [fsub_of_not_isNaN (not_isNaN_of_isFinite ha) (not_isNaN_of_isFinite hb),
    addCore_of_exact_zero ha ((isFinite_fneg b).trans hb) _ hunits, signBit_fneg]

theorem fmul_of_isZero (hzero : isZero a = true ∨ isZero b = true) : fmul a b = zeroOf (signBit a != signBit b) := by
  have hprod : magUnits a * magUnits b = 0 := by
    rwa [Nat.mul_eq_zero, magUnits_eq_zero_iff, magUnits_eq_zero_iff]
  rw [← roundUnits_zero _ (Nat.two_pow_pos 149), ← hprod]
  simp [fmul, not_isInf_of_isFinite ha, not_isInf_of_isFinite hb, not_isNaN_of_isFinite ha, not_isNaN_of_isFinite hb]

theorem fdiv_zero (hza : isZero a = true) (hzb : isZero b = false) : fdiv a b = zeroOf (signBit a != signBit b) := by
  have hpos : 0 < magUnits b := Nat.pos_of_ne_zero fun h => by simp [(magUnits_eq_zero_iff b).mp h] at hzb
  rw [fdiv_of_not_isZero ha hb hzb, (magUnits_eq_zero_iff a).mpr hza, Nat.zero_mul, roundUnits_zero _ hpos]

end

/-- Settles O50: each result is rounded once, and an exact zero has its sign. -/
theorem arithmeticIsCorrectlyRounded : Obligations.ArithmeticIsCorrectlyRounded := by
  intro a b ha hb
  refine ⟨?_, ?_, ?_, fun hzb => ?_, fun h => ?_, fun h => ?_, fun h => ?_, fun hza hzb => ?_⟩
  · exact_mod_cast roundsTo_of_rounded (rounded_fadd ha hb)
  · exact_mod_cast roundsTo_of_rounded (rounded_fsub ha hb)
  · exact_mod_cast roundsTo_of_rounded (rounded_fmul ha hb)
  · exact_mod_cast roundsTo_of_rounded (rounded_fdiv ha hb hzb)
  · rw [fadd_of_exact_zero ha hb h]
    exact zeroOf_spec _
  · rw [fsub_of_exact_zero ha hb h]
    exact zeroOf_spec _
  · rw [fmul_of_isZero ha hb h]
    exact zeroOf_spec _
  · rw [fdiv_zero ha hb hza hzb]
    exact zeroOf_spec _

/-! ### The square root -/

theorem isqrtFrom_spec {n b r : Nat} (hlow : r * r ≤ n) (hhigh : n < (r + 2 ^ b) * (r + 2 ^ b)) :
    isqrtFrom n b r * isqrtFrom n b r ≤ n ∧ n < (isqrtFrom n b r + 1) * (isqrtFrom n b r + 1) := by
  induction b generalizing r with
  | zero => exact ⟨hlow, hhigh⟩
  | succ b ih =>
    rw [isqrtFrom]
    split
    · next hdigit =>
      exact ih hdigit (by rwa [Nat.add_assoc, ← Nat.two_mul, ← Nat.pow_succ'])
    · next hdigit => exact ih hlow (by omega)

theorem isqrt_spec (n : Nat) : isqrt n * isqrt n ≤ n ∧ n < (isqrt n + 1) * (isqrt n + 1) := by
  refine isqrtFrom_spec (by omega) ?_
  rw [Nat.zero_add, ← pow_add]
  exact Nat.lt_log2_self.trans_le (Nat.pow_le_pow_right (by omega) (by omega))

/-- The integer root of a number from 2^48 on fills the significand, so a quantum is at least two units. -/
theorem one_le_quantumExp_isqrt {n : Nat} (h : 2 ^ 48 ≤ n) (sticky : Nat) :
    1 ≤ quantumExp (2 * isqrt n + sticky) 2 := by
  have hroot : 2 ^ 24 ≤ isqrt n := by
    by_contra hlt
    have hle : isqrt n + 1 ≤ 2 ^ 24 := by omega
    have := (isqrt_spec n).2.trans_le (Nat.mul_le_mul hle hle)
    omega
  have hlog : 24 ≤ ((2 * isqrt n + sticky) / 2).log2 := (Nat.le_log2 (by omega)).mpr (by omega)
  unfold quantumExp
  omega

/-- The integer root, and half a unit if it is not exact, lies where the root lies between any even halves. -/
theorem standsFor_sqrt {n : Nat} (h : 2 ^ 48 ≤ n) :
    StandsFor (2 * isqrt n + if isqrt n * isqrt n = n then 0 else 1) 2 (Real.sqrt n) := by
  intro k
  obtain ⟨q, hq⟩ := Nat.exists_eq_add_of_le' (one_le_quantumExp_isqrt h (if isqrt n * isqrt n = n then 0 else 1))
  obtain ⟨hlow, hhigh⟩ := isqrt_spec n
  have hbelow : ((2 ^ q * k : Nat) : ℝ) < √n ↔ 2 ^ q * k * (2 ^ q * k) < n := by
    rw [Real.lt_sqrt (Nat.cast_nonneg _), sq]
    norm_cast
  have habove : √n < ((2 ^ q * k : Nat) : ℝ) ↔ n < 2 ^ q * k * (2 ^ q * k) := by
    rw [← not_le, Real.le_sqrt (Nat.cast_nonneg _) (Nat.cast_nonneg _), sq, ← not_le]
    norm_cast
  have hscale : (2 : ℝ) ^ (q + 1) * k = 2 * ((2 ^ q * k : Nat) : ℝ) := by push_cast; ring
  have hscale' : 2 * 2 ^ (q + 1) * k = 4 * (2 ^ q * k) := by ring
  rw [hq, hscale, hscale', mul_lt_mul_iff_right₀ two_pos, mul_lt_mul_iff_right₀ two_pos, hbelow, habove]
  generalize 2 ^ q * k = m
  generalize isqrt n = r at *
  rcases Nat.lt_trichotomy m r with hm | rfl | hm
  · have : m * m < r * r := Nat.mul_self_lt_mul_self_iff.mpr hm
    split <;> omega
  · split <;> omega
  · have : (r + 1) * (r + 1) ≤ m * m := Nat.mul_self_le_mul_self hm
    split <;> omega

theorem sqrt_valueOf {a : F32} (hsign : signBit a = false) :
    √(valueOf a : ℝ) = √((magUnits a * 2 ^ 149 : Nat) : ℝ) / 2 ^ 149 := by
  have hval : (valueOf a : ℝ) = ((magUnits a * 2 ^ 149 : Nat) : ℝ) / (2 ^ 149) ^ 2 := by
    rw [valueOf, Rat.cast_div, Rat.cast_intCast, Rat.cast_pow, Rat.cast_ofNat, units_eq, hsign, signed_false,
      ← magUnits_eq, Int.cast_natCast, Nat.cast_mul, Nat.cast_pow, Nat.cast_ofNat, sq,
      mul_div_mul_right _ _ (by positivity)]
  rw [hval, Real.sqrt_div' _ (by positivity), Real.sqrt_sq (by positivity)]

theorem fsqrt_of_isZero {a : F32} (h : isZero a = true) : fsqrt a = a := by
  simp [fsqrt, h, not_isNaN_of_isFinite (isFinite_of_isZero h)]

theorem signBit_of_valueOf_nonneg {a : F32} (hval : 0 ≤ valueOf a) (hzero : isZero a = false) : signBit a = false := by
  rw [← Bool.not_eq_true]
  intro hsign
  have hpos : 0 < magUnits a := Nat.pos_of_ne_zero fun h => by simp [(magUnits_eq_zero_iff a).mp h] at hzero
  rw [valueOf, le_div_iff₀ (by positivity), zero_mul, units_eq, hsign, signed_true, ← magUnits_eq] at hval
  have : (0 : Int) ≤ -(magUnits a : Int) := by exact_mod_cast hval
  omega

/-- Settles O51: the root of `u` units is the root of `u·2^149` in units. -/
theorem squareRootIsCorrectlyRounded : Obligations.SquareRootIsCorrectlyRounded := by
  intro a ha hval
  refine ⟨?_, fsqrt_of_isZero⟩
  cases hzero : isZero a
  · have hsign := signBit_of_valueOf_nonneg hval hzero
    have hpos : 0 < magUnits a := Nat.pos_of_ne_zero fun h => by simp [(magUnits_eq_zero_iff a).mp h] at hzero
    have hroot := roundsTo_roundUnits_pos two_pos (standsFor_sqrt (n := magUnits a * 2 ^ 149) (by omega))
    rw [sqrt_valueOf hsign]
    simpa [fsqrt, not_isNaN_of_isFinite ha, not_isInf_of_isFinite ha, hzero, hsign] using hroot
  · have hrounded : Rounded a 0 := ⟨signBit a, 0, 1, one_pos,
      (eq_zeroOf_of_isZero hzero).trans (zeroOf_eq_roundUnits _), by cases signBit a <;> simp⟩
    have hunits : valueOf a = 0 := by
      rw [valueOf, units_eq, ← magUnits_eq, (magUnits_eq_zero_iff a).mpr hzero]
      cases signBit a <;> simp
    rw [fsqrt_of_isZero hzero, hunits, Rat.cast_zero, Real.sqrt_zero]
    exact_mod_cast roundsTo_of_rounded hrounded

end Sys2Proof.Proofs.CorrectRounding
end

section
/-! PROOF. A Stage, the output stage, and one sample's path through them (41_cic.md R158 to R162, R168, R169, R173). -/

namespace Sys2Proof.Proofs.DecimatorPath

open Sys2Proof.Machine
open Sys2Proof.Proofs.Exceptional

/-! ### A Stage -/

section
variable {f : Nat} {st : Stage} {x oldest : C32} {rest : List C32}

theorem history_eq (h : StageOk f st) : st.history = st.buf.drop st.idx ++ st.buf.take st.idx :=
  List.rotate_eq_drop_append_take (by omega)

/-- The oldest sample stands at `IDX`, and the others follow it around the buffer. -/
theorem oldest_of_history (h : StageOk f st) (hhist : st.history = oldest :: rest) :
    st.buf.getD st.idx C32.zero = oldest ∧ rest = st.buf.drop (st.idx + 1) ++ st.buf.take st.idx := by
  have hlt : st.idx < st.buf.length := by omega
  rw [history_eq h, List.drop_eq_getElem_cons hlt, List.cons_append, List.cons.injEq] at hhist
  obtain ⟨hhead, htail⟩ := hhist
  exact ⟨by rw [List.getD_eq_getElem _ _ hlt, hhead], htail.symm⟩

theorem stageStep_moving (hf : 3 ≤ f) : stageStep f st x = stageMoving f st x := if_neg (by omega)

/-- The new sample takes the oldest one's place, which is then the last one around the buffer. -/
theorem history_stageMoving (h : StageOk f st) (hhist : st.history = oldest :: rest) :
    (stageMoving f st x).1.history = rest ++ [x] := by
  obtain ⟨-, hrest⟩ := oldest_of_history h hhist
  obtain ⟨hlen, hidx⟩ := h
  have hlen' : (st.buf.set st.idx x).length = f - 1 := by rw [List.length_set, hlen]
  calc (stageMoving f st x).1.history = (st.buf.set st.idx x).rotate ((st.idx + 1) % (f - 1)) := rfl
    _ = (st.buf.set st.idx x).rotate (st.idx + 1) := by rw [← hlen', List.rotate_mod]
    _ = st.buf.drop (st.idx + 1) ++ (st.buf.take st.idx ++ [x]) := by
      rw [List.rotate_eq_drop_append_take (by omega), List.drop_set_of_lt (by omega), List.take_add_one,
        List.take_set_of_le le_rfl, List.getElem?_set_self (by omega), Option.toList_some]
    _ = rest ++ [x] := by rw [hrest, List.append_assoc]

end

/-- A NaN in a rail's sum or input goes into its output and into its new sum. -/
theorem isNaN_rail {sum x gain old : F32} (h : isNaN sum = true ∨ isNaN x = true) :
    isNaN (fmul (fadd sum x) gain) = true ∧ isNaN (fsub (fadd sum x) old) = true := by
  have hadd := isNaN_fadd_of_isNaN h
  exact ⟨isNaN_fmul_of_isNaN (.inl hadd), isNaN_fsub_of_isNaN (.inl hadd)⟩

/-- Settles O42: the circle read from the oldest sample on. -/
theorem stageIsMovingSumOfItsHistory : Obligations.StageIsMovingSumOfItsHistory := by
  constructor
  · intro f st x oldest rest hf hok hhist
    obtain ⟨holdest, -⟩ := oldest_of_history hok hhist
    have hshape := DecimatorShapes.stageOk_stageStep hok x
    simp only [stageStep_moving hf] at hshape ⊢
    refine ⟨rfl, ?_, history_stageMoving hok hhist, rfl, hshape, isNaN_rail, isNaN_rail⟩
    rw [← holdest]
    rfl
  · intro st x prev hbuf
    simp [stageStep, stageTwoTap, hbuf]

/-! ### The output stage -/

/-- The taps and the line side by side, by tap index. -/
theorem zip_eq_map_range {α β : Type} (as : List α) (bs : List β) (a : α) (b : β) (h : as.length ≤ bs.length) :
    as.zip bs = (List.range as.length).map fun n => (as.getD n a, bs.getD n b) := by
  apply List.ext_getElem
  · simp [h]
  · intro n hn _
    have hlt : n < as.length := by simp at hn; omega
    simp [List.getElem?_eq_getElem hlt, List.getElem?_eq_getElem (hlt.trans_le h)]

/-- The sum reads no further into the line than it has taps. -/
theorem firSum_take (taps : List F32) (line : List C32) (h : taps.length ≤ line.length) :
    firSum taps (line.take taps.length) = (List.range taps.length).foldl
      (fun acc n => ⟨fadd acc.i (fmul (taps.getD n fZERO) (line.getD n C32.zero).i),
        fadd acc.q (fmul (taps.getD n fZERO) (line.getD n C32.zero).q)⟩) C32.zero := by
  have hzip : taps.zip (line.take taps.length) = taps.zip line := by
    conv_lhs => rw [← List.take_length (l := taps), List.zip_eq_zip_take_min]
    rw [List.zip_eq_zip_take_min (l₁ := taps) (l₂ := line)]
    simp [List.take_take, h]
  rw [firSum, hzip, zip_eq_map_range taps line fZERO C32.zero h, List.foldl_map]

/-- Settles O43: the zip of taps and line read by tap index. -/
theorem outputStageFiltersAndFillsBlocks : Obligations.OutputStageFiltersAndFillsBlocks := by
  refine ⟨fun u y hlen => ⟨rfl, ?_⟩, fun n u z => ⟨fun h => if_neg h, fun h => if_pos h⟩⟩
  calc (firStep u y).2 = firSum u.taps ((y :: u.x).take u.taps.length) := by rw [← hlen]; rfl
    _ = _ := firSum_take u.taps (y :: u.x) (by simp [hlen])

/-! ### A sample's path -/

/-- The Stages run in order, each on the output of the one before. -/
theorem stagesStep_path (f : Nat) (sts : List Stage) (x : C32) :
    ∃ ys : List C32, ys.length = sts.length + 1 ∧ ys[0]? = some x ∧
      ys[sts.length]? = some (stagesStep f sts x).2 ∧ (stagesStep f sts x).1.length = sts.length ∧
      ∀ (j : Nat) (st : Stage) (u : C32), sts[j]? = some st → ys[j]? = some u →
        (stagesStep f sts x).1[j]? = some (stageStep f st u).1 ∧ ys[j + 1]? = some (stageStep f st u).2 := by
  induction sts generalizing x with
  | nil => exact ⟨[x], by simp [stagesStep]⟩
  | cons st sts ih =>
    obtain ⟨ys, hlen, hhead, hlast, hsts, hsteps⟩ := ih (stageStep f st x).2
    refine ⟨x :: ys, congrArg (· + 1) hlen, rfl, hlast, congrArg (· + 1) hsts, fun j st' u hst hu => ?_⟩
    cases j with
    | zero =>
      obtain rfl := Option.some.inj hst
      obtain rfl := Option.some.inj hu
      exact ⟨rfl, hhead⟩
    | succ j => exact hsteps j st' u hst hu

/-- How far a sample comes in the chain: `m` Decimating Stages keep it, `ys` are the samples between them, and the next
one drops it or there is no next one. -/
structure ChainPath (ds : List DecStage) (x : C32) (m : Nat) (ys : List C32) (ds' : List DecStage)
    (out : Option C32) : Prop where
  reach : m ≤ ds.length
  length : ys.length = m + 1
  head : ys[0]? = some x
  stages : ds'.length = ds.length
  kept : ∀ (k : Nat) (d : DecStage) (y : C32), k < m → ds[k]? = some d → ys[k]? = some y →
    ds'[k]? = some (decStageStep d y).1 ∧ (decStageStep d y).2 = ys[k + 1]?
  dropped : ∀ (d : DecStage) (y : C32), ds[m]? = some d → ys[m]? = some y →
    ds'[m]? = some (decStageStep d y).1 ∧ (decStageStep d y).2 = none
  behind : ∀ k : Nat, m < k → ds'[k]? = ds[k]?
  out_none : m < ds.length → out = none
  out_some : m = ds.length → out = ys[m]?

theorem chainStep_path (ds : List DecStage) (x : C32) :
    ∃ m ys, ChainPath ds x m ys (chainStep ds x).1 (chainStep ds x).2 := by
  induction ds generalizing x with
  | nil => exact ⟨0, [x], by constructor <;> simp [chainStep]⟩
  | cons d ds ih =>
    unfold chainStep
    rcases hstep : decStageStep d x with ⟨d', _ | y⟩
    · refine ⟨0, [x], ⟨Nat.zero_le _, rfl, rfl, rfl, fun k _ _ hk => absurd hk (Nat.not_lt_zero k), ?_, ?_,
        fun _ => rfl, fun h => absurd h (Nat.zero_ne_add_one _)⟩⟩
      · intro e u he hu
        obtain rfl := Option.some.inj he
        obtain rfl := Option.some.inj hu
        simp [hstep]
      · intro k hk
        obtain ⟨k, rfl⟩ := Nat.exists_eq_add_one_of_ne_zero hk.ne'
        rfl
    · obtain ⟨m, ys, hreach, hlen, hhead, hstages, hkept, hdropped, hbehind, hnone, hsome⟩ := ih y
      refine ⟨m + 1, x :: ys, ⟨Nat.succ_le_succ hreach, congrArg (· + 1) hlen, rfl, congrArg (· + 1) hstages, ?_,
        hdropped, ?_, fun h => hnone (Nat.lt_of_succ_lt_succ h), fun h => hsome (Nat.succ.inj h)⟩⟩
      · intro k e u hk he hu
        cases k with
        | zero =>
          obtain rfl := Option.some.inj he
          obtain rfl := Option.some.inj hu
          rw [hstep]
          exact ⟨rfl, hhead.symm⟩
        | succ k => exact hkept k e u (Nat.lt_of_succ_lt_succ hk) he hu
      · intro k hk
        obtain ⟨k, rfl⟩ := Nat.exists_eq_add_one_of_ne_zero (Nat.ne_zero_of_lt hk)
        exact hbehind k (Nat.lt_of_succ_lt_succ hk)

theorem cicRun_of_none {c : Config} {u : Cic} {x : C32} (h : (chainStep u.ds x).2 = none) :
    cicRun c u x = { cic := { u with ds := (chainStep u.ds x).1 }, nout := 0, blk := none } := by
  unfold cicRun
  split <;> simp_all

theorem cicRun_of_some {c : Config} {u : Cic} {x y : C32} (h : (chainStep u.ds x).2 = some y) :
    let z := firStep { u with ds := (chainStep u.ds x).1 } y
    let b := blockPut c.outBlock z.1 z.2
    cicRun c u x = { cic := b.1, nout := 1, blk := b.2 } := by
  unfold cicRun
  split <;> simp_all

/-- Settles O60: the path through the Stages, and how far the sample comes in the chain. -/
theorem decimatorPathFollowsThePseudocode : Obligations.DecimatorPathFollowsThePseudocode := by
  constructor
  · intro d x
    obtain ⟨ys, hlen, hhead, hlast, hsts, hsteps⟩ := stagesStep_path d.fact.toNat d.st x
    exact ⟨ys, _, _, hlen, hhead, hlast, hsts, hsteps, fun h => if_pos h, fun h => if_neg h⟩
  · intro c u x
    obtain ⟨m, ys, hreach, hlen, hhead, hstages, hkept, hdropped, hbehind, hnone, hsome⟩ := chainStep_path u.ds x
    exact ⟨m, ys, _, hreach, hlen, hhead, hstages, hkept, hdropped, hbehind, fun h => cicRun_of_none (hnone h),
      fun y hm hy => cicRun_of_some ((hsome hm).trans hy)⟩

end Sys2Proof.Proofs.DecimatorPath
end

section
/-! PROOF. A block command is its samples one by one, and stores the same work (41_cic.md R175; 42_psk.md R220).

Work only adds to what was done before it, so storing one sample's work and then the next one's is storing the work of
both. What the samples answer adds up to what the block counts. -/

namespace Sys2Proof.Proofs.SlotWork

open Sys2Proof.Machine

/-! ### Storing work -/

theorem modify_append_nil {α : Type} (ls : List (List α)) (k : Nat) : ls.modify k (· ++ []) = ls := by
  rw [funext (List.append_nil (α := α))]
  exact List.modify_id k ls

theorem store_workOn (s : State) {k : Nat} (hk : k < s.slots.length) : s.store k (workOn (s.slot k)) = s := by
  have hset : s.slots.set k (s.slot k) = s.slots := by
    rw [State.slot, List.getD_eq_getElem _ _ hk, List.set_getElem_self]
  rw [store_eq]
  simp only [workOn, hset, modify_append_nil]

theorem store_store (s : State) (k : Nat) (w v : Work) : (s.store k w).store k v = s.store k (w.followedBy v) := by
  simp only [store_eq, Work.followedBy, List.set_set, List.modify_modify_eq, Function.comp_def, List.append_assoc]

theorem foldl_followedBy {f : Work → C32 → Work} (hf : Adds f) (w : Work) (xs : List C32) :
    xs.foldl f w = w.followedBy (xs.foldl f (workOn w.sl)) := hf.foldl w xs

/-- Work without a snapshot writes no tap. -/
theorem store_answering_of_no_tap (s : State) (k : BitVec 8) {w : Work} (htap : w.tap = []) (rs : List Word) :
    (s.store k.toNat w).answering rs =
      { s with ports := { s.ports with out := s.ports.out.modify k.toNat (· ++ w.out) } }.put k w.sl rs := by
  rw [store_eq, htap]
  simp only [modify_append_nil]
  rfl

/-! ### One sample after the other -/

/-- The command `op x` stores the work `f` does on sample `x`, and answers `answer`, in every state whose slot is ready
for it. -/
structure StepsBy (k : BitVec 8) (op : C32 → Instr) (f : Config → Work → C32 → Work) (ready : Slot → Prop)
    (answer : Config → Slot → C32 → List Word) : Prop where
  exec : ∀ (s : State) (x : C32), Standalone s k → ready (s.slot k.toNat) →
    exec (op x) s =
      .next ((s.store k.toNat (f s.cfg (workOn (s.slot k.toNat)) x)).answering (answer s.cfg (s.slot k.toNat) x))
  adds : ∀ c, Adds (f c)
  keeps : ∀ c sl x, ready sl → ready (f c (workOn sl) x).sl ∧ (f c (workOn sl) x).sl.src = sl.src

/-- The responses of a run of steps. -/
def responses (f : Config → Work → C32 → Work) (answer : Config → Slot → C32 → List Word) (c : Config) :
    Slot → List C32 → List (List Word)
  | _, [] => []
  | sl, x :: xs =>
    (BitVec.ofNat 32 (256 * (answer c sl x).length) :: answer c sl x) ::
      responses f answer c (f c (workOn sl) x).sl xs

section
variable {k : BitVec 8} {op : C32 → Instr} {f : Config → Work → C32 → Work} {ready : Slot → Prop}
  {answer : Config → Slot → C32 → List Word}

/-- A run of steps stores the whole run's work, by induction on the samples. -/
theorem StepsBy.afterAll_eq (h : StepsBy k op f ready answer) (xs : List C32) {s : State} (hk : Standalone s k)
    (hslot : k.toNat < s.slots.length) (hready : ready (s.slot k.toNat)) :
    afterAll (xs.map op) s =
      { s.store k.toNat (xs.foldl (f s.cfg) (workOn (s.slot k.toNat))) with
        resp := s.resp ++ responses f answer s.cfg (s.slot k.toNat) xs } := by
  induction xs generalizing s with
  | nil =>
    rw [List.foldl_nil, store_workOn s hslot, responses, List.append_nil]
    rfl
  | cons x xs ih =>
    obtain ⟨hready', hsrc⟩ := h.keeps s.cfg (s.slot k.toNat) x hready
    have hafter : after (op x) s = (s.store k.toNat (f s.cfg (workOn (s.slot k.toNat)) x)).answering
        (answer s.cfg (s.slot k.toNat) x) := by rw [after, h.exec s x hk hready]
    have hnew : (after (op x) s).slot k.toNat = (f s.cfg (workOn (s.slot k.toNat)) x).sl := by
      rw [hafter]
      exact slot_setSlot_same hslot _
    have hstand : Standalone (after (op x) s) k := by
      obtain ⟨hnsrc, hstate⟩ := hk
      exact ⟨by rw [hafter]; exact hnsrc, by rw [hnew, hsrc]; exact hstate⟩
    have hrest := ih hstand (by rw [hafter]; simpa using hslot) (by rw [hnew]; exact hready')
    rw [List.map_cons, afterAll, List.foldl_cons, ← afterAll, hrest, hnew, List.foldl_cons,
      foldl_followedBy (h.adds s.cfg) (f s.cfg (workOn (s.slot k.toNat)) x), ← store_store,
      responses, hafter]
    simp [State.answering, store_eq]

/-- The results at a place of the responses add up to a count, when each does and the count adds up. -/
theorem StepsBy.sumOfResults_eq (h : StepsBy k op f ready answer) (xs : List C32) {s : State} (hk : Standalone s k)
    (hslot : k.toNat < s.slots.length) (hready : ready (s.slot k.toNat)) {place : Nat} {count : Work → Nat}
    (hcount : ∀ w v, count (w.followedBy v) = count w + count v) (hnone : ∀ sl, count (workOn sl) = 0)
    (hanswer : ∀ c sl x, ((BitVec.ofNat 32 (256 * (answer c sl x).length) :: answer c sl x).getD place 0).toNat =
      count (f c (workOn sl) x)) :
    sumOfResults s (afterAll (xs.map op) s) place = count (xs.foldl (f s.cfg) (workOn (s.slot k.toNat))) := by
  have hsum (c : Config) (sl : Slot) : ((responses f answer c sl xs).map fun r => (r.getD place 0).toNat).sum =
      count (xs.foldl (f c) (workOn sl)) := by
    induction xs generalizing sl with
    | nil => exact (hnone sl).symm
    | cons x xs ih =>
      rw [responses, List.map_cons, List.sum_cons, hanswer, ih, List.foldl_cons,
        foldl_followedBy (h.adds c) (f c (workOn sl) x), hcount]
  rw [sumOfResults, h.afterAll_eq xs hk hslot hready, List.drop_left, hsum]

/-- The block's work stored is the state the steps leave, responses apart. -/
theorem StepsBy.store_foldl (h : StepsBy k op f ready answer) (xs : List C32) {s : State} (hk : Standalone s k)
    (hslot : k.toNat < s.slots.length) (hready : ready (s.slot k.toNat)) :
    s.store k.toNat (xs.foldl (f s.cfg) (workOn (s.slot k.toNat))) =
      { afterAll (xs.map op) s with resp := s.resp } := by
  rw [h.afterAll_eq xs hk hslot hready]
  rfl

end

/-! ### The two kinds of samples -/

/-- One pushed sample's work. -/
theorem pushOne_workOn (c : Config) (sl : Slot) (x : C32) :
    pushOne c (workOn sl) x =
      { workOn { sl with cic := (cicRun c sl.cic x).cic } with
        out := if sl.src.consumer then (cicRun c sl.cic x).blk.toList.map OutItem.block else []
        nout := (cicRun c sl.cic x).nout
        nblk := if (cicRun c sl.cic x).blk.isSome then 1 else 0 } := by
  simp only [pushOne, workOn, Nat.zero_add]
  cases (cicRun c sl.cic x).blk with
  | none => simp
  | some b => rfl

/-- One sample's work in the loop. -/
theorem pskOne_workOn (c : Config) (sl : Slot) (x : C32) :
    pskOne c (workOn sl) x =
      { workOn { sl with psk := (pskRun c.elOffset sl.psk x).1 } with
        out := if sl.src.consumer then
          (pskRun c.elOffset sl.psk x).2.toList.map fun e => OutItem.symbol e.z else []
        tap := if sl.src.tapen then (pskRun c.elOffset sl.psk x).2.toList.map SymbolEvent.snap else []
        nsym := if (pskRun c.elOffset sl.psk x).2.isSome then 1 else 0 } := by
  rw [Sources.pskOne_eq]
  simp only [workOn, List.nil_append, Nat.zero_add]
  rfl

end Sys2Proof.Proofs.SlotWork
end

section
/-! PROOF. The CIC commands (41_cic.md R166, R167, R174 to R176). -/

namespace Sys2Proof.Proofs.CicCommands

open Sys2Proof.Machine
open Sys2Proof.Proofs.Allocation
open Sys2Proof.Proofs.SlotWork

section
variable {s : State} {k : BitVec 8} {r : BitVec 16} {rate pass stop : Word} {fs : List Nat}

/-! ### The records and the read-out -/

theorem header_cicCfg (k : BitVec 8) (r : BitVec 16) (rate pass stop : Word) :
    (Instr.cicCfg k r rate pass stop).header = 0x50000000#32 ||| slotBits k ||| r.setWidth 32 :=
  headerWord_eq_or 0x50 k r

theorem header_cicPush (k : BitVec 8) (x : C32) : (Instr.cicPush k x).header = 0x51000000#32 ||| slotBits k :=
  SrcRegisters.headerWord_imm_zero 0x51 k

theorem header_cicPushblk (k : BitVec 8) (xs : List C32) :
    (Instr.cicPushblk k xs).header = 0x52000000#32 ||| slotBits k ||| BitVec.ofNat 32 (xs.length % 65536) :=
  Blocks.headerWord_blockImm 0x52 k xs

theorem header_cicGetcfg (k : BitVec 8) (n : BitVec 16) :
    (Instr.cicGetcfg k n).header = 0x53000000#32 ||| slotBits k ||| n.setWidth 32 :=
  headerWord_eq_or 0x53 k n

theorem factWord_eq (u : Cic) (n : Nat) : factWord u n = (u.ds.map fun d => d.fact.setWidth 32).getD n 0#32 := by
  unfold factWord
  split <;> simp_all

theorem exec_cicGetcfg (hk : k.toNat < s.cfg.nsrc) (n : BitVec 16) :
    exec (.cicGetcfg k n) s = .next (s.answering
      [wordOfBool (s.slot k.toNat).cic.cfgd, u32 (s.slot k.toNat).cic.nds, factWord (s.slot k.toNat).cic n.toNat,
        if (s.slot k.toNat).cic.cfgd then u32 (s.slot k.toNat).cic.len else 0, u32 (s.slot k.toNat).cic.blkn]) := by
  change execCicGetcfg k n s = _
  rw [execCicGetcfg, withSlot_present hk]
  exact succeed_eq (by simp) _

/-! ### The configuration -/

/-- The gains of a chain, the last one its own form for every order (R160). -/
theorem gains_eq (order f : Nat) :
    gains order f = List.replicate (order - 1) (fdiv fONE (i2f f)) ++
      [if order = 1 then fdiv fONE (i2f f)
        else fmul (fdiv fONE (i2f f)) (fdiv fONE (fsub fONE (fdiv fONE (i2f f))))] := by
  unfold gains lastGainOf gainOf
  split
  · next horder => simp [horder]
  · rfl

theorem cicConstruct_of_miss (hfs : supported r.toNat = some fs) (hmiss : cacheFind s.cache rate r = none) :
    cicConstruct s rate r pass stop =
      (design s.cfg.tapsMax rate r pass stop).elim (.error .filter) fun taps => .ok ⟨fs, taps, false⟩ := by
  rcases hdesign : design s.cfg.tapsMax rate r pass stop with _ | taps
  · exact cicConstruct_of_failed hfs hmiss hdesign
  · exact cicConstruct_of_designed hfs hmiss hdesign

variable (hk : Standalone s k)
include hk

theorem exec_cicCfg_of_no_rate (hrate : rate = 0) :
    exec (.cicCfg k r rate pass stop) s =
      .next (s.raise (0x50000000#32 ||| slotBits k ||| r.setWidth 32) .operand) := by
  change execCicCfg k r rate pass stop s = _
  rw [execCicCfg, withStandalone_of_standalone hk, if_pos hrate, header_cicCfg, fail]

theorem exec_cicCfg_of_error {e : Status} (hrate : rate ≠ 0) (h : cicConstruct s rate r pass stop = .error e) :
    exec (.cicCfg k r rate pass stop) s = .next (s.raise (0x50000000#32 ||| slotBits k ||| r.setWidth 32) e) := by
  change execCicCfg k r rate pass stop s = _
  rw [execCicCfg, withStandalone_of_standalone hk, if_neg hrate, h, header_cicCfg]
  rfl

theorem exec_cicCfg_of_ok {p : Plan} (hrate : rate ≠ 0) (h : cicConstruct s rate r pass stop = .ok p) :
    exec (.cicCfg k r rate pass stop) s = .next ({ s with cache := cacheAfter s rate r p }.put k
      { s.slot k.toNat with cic := cicInit s.cfg rate r pass stop p.fs p.taps } []) := by
  change execCicCfg k r rate pass stop s = _
  rw [execCicCfg, withStandalone_of_standalone hk, if_neg hrate, h]
  exact succeed_eq (by simp) _

/-! ### The pushes -/

theorem exec_cicPush_of_unset (x : C32) (hcfgd : (s.slot k.toNat).cic.cfgd = false) :
    exec (.cicPush k x) s = .next (s.raise (0x51000000#32 ||| slotBits k) .notcfg) := by
  change execCicPush k x s = _
  rw [execCicPush, withStandalone_of_standalone hk, if_pos hcfgd, header_cicPush, fail]

theorem exec_cicPush_of_set (x : C32) (hcfgd : (s.slot k.toNat).cic.cfgd = true) :
    exec (.cicPush k x) s =
      .next ((s.store k.toNat (pushOne s.cfg (workOn (s.slot k.toNat)) x)).answering
        [u32 (pushOne s.cfg (workOn (s.slot k.toNat)) x).nout,
          u32 (pushOne s.cfg (workOn (s.slot k.toNat)) x).nblk]) := by
  change execCicPush k x s = _
  rw [execCicPush, withStandalone_of_standalone hk, if_neg (by simp [hcfgd])]
  exact succeed_eq (by simp) _

theorem exec_cicPush_eq (x : C32) (hcfgd : (s.slot k.toNat).cic.cfgd = true) :
    exec (.cicPush k x) s = .next ({ s with
        ports := { s.ports with
          out := s.ports.out.modify k.toNat
            (· ++ if (s.slot k.toNat).src.consumer then
              (cicRun s.cfg (s.slot k.toNat).cic x).blk.toList.map OutItem.block else []) } }.put k
        { s.slot k.toNat with cic := (cicRun s.cfg (s.slot k.toNat).cic x).cic }
      [u32 (cicRun s.cfg (s.slot k.toNat).cic x).nout,
        if (cicRun s.cfg (s.slot k.toNat).cic x).blk.isSome then 1#32 else 0#32]) := by
  rw [exec_cicPush_of_set hk x hcfgd, store_answering_of_no_tap s k (by rw [pushOne_workOn]; rfl), pushOne_workOn]
  simp only [workOn, apply_ite u32]
  rfl

theorem exec_cicPushblk_of_unset (xs : List C32) (hcfgd : (s.slot k.toNat).cic.cfgd = false) :
    exec (.cicPushblk k xs) s =
      .next (s.raise (0x52000000#32 ||| slotBits k ||| BitVec.ofNat 32 (xs.length % 65536)) .notcfg) := by
  change execCicPushblk k xs s = _
  rw [execCicPushblk, withStandalone_of_standalone hk, if_pos hcfgd, header_cicPushblk, fail]

end

/-- Settles O37: the records, the read-out, then the configuration's checks in order and the push. -/
theorem cicCommandsAnswer : Obligations.CicCommandsAnswer := by
  intro k r rate pass stop x n s sl h hit unit
  have hunit (fs : List Nat) (taps : List F32) : cicInit s.cfg rate r pass stop fs taps = unit fs taps :=
    congrArg (fun gs : Nat → List F32 => { cicInit s.cfg rate r pass stop fs taps with
      ds := fs.map fun f => ⟨BitVec.ofNat 16 f, (gs f).map (freshStage f), 0⟩ }) (funext (gains_eq s.cfg.cicOrder))
  refine ⟨congrArg (· :: _) (header_cicCfg k r rate pass stop), congrArg (· :: _) (header_cicPush k x),
    congrArg (· :: []) (header_cicGetcfg k n), fun hk => ?_, fun hk => ⟨exec_cicCfg_of_no_rate hk, fun hrate hfs =>
      exec_cicCfg_of_error hk hrate (cicConstruct_of_unsupported hfs), fun fs e hrate hfs hhit => ?_,
      fun fs hrate hfs hmiss => ?_, exec_cicPush_of_unset hk x, exec_cicPush_eq hk x⟩⟩
  · rw [exec_cicGetcfg hk, factWord_eq]
    rfl
  · rw [exec_cicCfg_of_ok hk hrate (cicConstruct_of_hit hfs hhit), hunit]
    rfl
  · have hplan := cicConstruct_of_miss (pass := pass) (stop := stop) hfs hmiss
    rcases hdesign : design s.cfg.tapsMax rate r pass stop with _ | taps <;> rw [hdesign] at hplan
    · exact exec_cicCfg_of_error hk hrate hplan
    · rw [exec_cicCfg_of_ok hk hrate hplan, hunit]
      rfl

/-! ### The block -/

theorem cicRun_nout_le (c : Config) (u : Cic) (x : C32) : (cicRun c u x).nout ≤ 1 := by
  unfold cicRun
  split <;> simp

theorem blockPut_cfgd (n : Nat) (u : Cic) (z : C32) : (blockPut n u z).1.cfgd = u.cfgd := by
  unfold blockPut
  simp only
  split <;> rfl

theorem cicRun_cfgd (c : Config) (u : Cic) (x : C32) : (cicRun c u x).cic.cfgd = u.cfgd := by
  rcases h : (chainStep u.ds x).2 with _ | y
  · rw [DecimatorPath.cicRun_of_none h]
  · rw [DecimatorPath.cicRun_of_some h]
    exact blockPut_cfgd ..

theorem toNat_u32 {n : Nat} (h : n ≤ 1) : (u32 n).toNat = n := by
  rw [u32, BitVec.toNat_ofNat]
  omega

theorem pushOne_counts_le (c : Config) (sl : Slot) (x : C32) :
    (pushOne c (workOn sl) x).nout ≤ 1 ∧ (pushOne c (workOn sl) x).nblk ≤ 1 := by
  rw [pushOne_workOn]
  refine ⟨cicRun_nout_le c sl.cic x, ?_⟩
  simp only
  split <;> omega

/-- A push writes the decimator and keeps it configured. -/
theorem stepsBy_cicPush (k : BitVec 8) :
    StepsBy k (.cicPush k) pushOne (fun sl => sl.cic.cfgd = true) fun c sl x =>
      [u32 (pushOne c (workOn sl) x).nout, u32 (pushOne c (workOn sl) x).nblk] where
  exec _ x hk hcfgd := exec_cicPush_of_set hk x hcfgd
  adds := pushOne_adds
  keeps c sl x hcfgd := by
    rw [pushOne_sl]
    exact ⟨(cicRun_cfgd c sl.cic x).trans hcfgd, rfl⟩

/-- Settles O38: the pushes store the block's work, and their results add up to its counts. -/
theorem cicPushblkIsItsPushes : Obligations.CicPushblkIsItsPushes := by
  intro k xs s
  refine ⟨?_, fun hk => exec_cicPushblk_of_unset hk xs, fun hk hslot hcfgd => ?_⟩
  · rw [encode, header_cicPushblk]
    exact Blocks.record_eq _ xs
  · have h := stepsBy_cicPush k
    intro t
    have hnout : sumOfResults s t 1 = _ := h.sumOfResults_eq (count := Work.nout) xs hk hslot hcfgd (fun _ _ => rfl)
      (fun _ => rfl) fun c sl x => toNat_u32 (pushOne_counts_le c sl x).1
    have hnblk : sumOfResults s t 2 = _ := h.sumOfResults_eq (count := Work.nblk) xs hk hslot hcfgd (fun _ _ => rfl)
      (fun _ => rfl) fun c sl x => toNat_u32 (pushOne_counts_le c sl x).2
    rw [Decimation.exec_cicPushblk hk hcfgd, h.store_foldl xs hk hslot hcfgd, hnout, hnblk]
    rfl

end Sys2Proof.Proofs.CicCommands
end

section
/-! PROOF. One step of the loop, and the PSK commands (42_psk.md R190 to R227). -/

namespace Sys2Proof.Proofs.PskCommands

open Sys2Proof.Machine
open Sys2Proof.Proofs.SlotWork

/-! ### One step -/

theorem sub_one_eq_zero_iff (n : BitVec 16) : n - 1#16 = 0 ↔ n = 1#16 :=
  sub_eq_zero

section
variable {e : Nat} {u : Psk}

theorem pskRun_of_not_due (h : u.skip ≠ 1#16) (x : C32) : pskRun e u x = (pskAdvance u x, none) :=
  if_neg (mt (sub_one_eq_zero_iff u.skip).mp h)

theorem pskRun_of_due (h : u.skip = 1#16) (x : C32) :
    pskRun e u x = ((symbolEvent e (pskAdvance u x)).1, some (symbolEvent e (pskAdvance u x)).2) :=
  if_pos ((sub_one_eq_zero_iff u.skip).mpr h)

theorem pskRun_isSome_iff (x : C32) : (pskRun e u x).2.isSome = true ↔ u.skip = 1#16 := by
  by_cases h : u.skip = 1#16
  · simp [pskRun_of_due h, h]
  · simp [pskRun_of_not_due h, h]

theorem pskRun_cfgd (x : C32) : (pskRun e u x).1.cfgd = u.cfgd := by
  by_cases h : u.skip = 1#16
  · rw [pskRun_of_due h]
    rfl
  · rw [pskRun_of_not_due h]
    rfl

end

/-- Settles O46: the registers a step writes, in the operations' order. -/
theorem pskStepFollowsThePseudocode : Obligations.PskStepFollowsThePseudocode := by
  intro e u x
  exact ⟨fun h => pskRun_of_not_due h x, fun h => pskRun_of_due h x⟩

/-! ### The records -/

theorem setWidth_pskImm (sps : BitVec 8) (ted : Bool) :
    (pskImm sps ted).setWidth 32 = (if ted then 0x100#32 else 0#32) ||| sps.setWidth 32 := by
  cases ted <;> simp only [pskImm, Bool.false_eq_true, if_true, if_false] <;> revert sps <;> decide

theorem header_pskCfg (k sps : BitVec 8) (ted : Bool) (alpha beta fmax gainmu gainomega : F32) :
    (Instr.pskCfg k sps ted alpha beta fmax gainmu gainomega).header =
      0x60000000#32 ||| slotBits k ||| (if ted then 0x100#32 else 0#32) ||| sps.setWidth 32 := by
  rw [BitVec.or_assoc _ (if ted then _ else _), ← setWidth_pskImm]
  exact headerWord_eq_or 0x60 k _

theorem header_pskStep (k : BitVec 8) (x : C32) : (Instr.pskStep k x).header = 0x61000000#32 ||| slotBits k :=
  SrcRegisters.headerWord_imm_zero 0x61 k

theorem header_pskStepblk (k : BitVec 8) (xs : List C32) :
    (Instr.pskStepblk k xs).header = 0x62000000#32 ||| slotBits k ||| BitVec.ofNat 32 (xs.length % 65536) :=
  Blocks.headerWord_blockImm 0x62 k xs

theorem header_pskGetstate (k : BitVec 8) : (Instr.pskGetstate k).header = 0x63000000#32 ||| slotBits k :=
  SrcRegisters.headerWord_imm_zero 0x63 k

/-! ### The configuration and the read-out -/

section
variable {s : State} {k : BitVec 8} (hk : k.toNat < s.cfg.nsrc)
include hk

theorem exec_pskGetstate :
    exec (.pskGetstate k) s = .next (s.answering
      [(s.slot k.toNat).psk.lphase, (s.slot k.toNat).psk.lfreq, (s.slot k.toNat).psk.mu, (s.slot k.toNat).psk.omega,
        BitVec.ofNat 32 (s.slot k.toNat).psk.skip.toNat, (s.slot k.toNat).psk.prev.i,
        (s.slot k.toNat).psk.prev.q]) := by
  change execPskGetstate k s = _
  rw [execPskGetstate, withSlot_present hk, BitVec.ofNat_toNat]
  exact succeed_eq (by simp [wordsC32]) _

variable {sps : BitVec 8} {ted : Bool} {alpha beta fmax gainmu gainomega : F32}

theorem exec_pskCfg_of_running (hstate : (s.slot k.toNat).src.state = .running) :
    exec (.pskCfg k sps ted alpha beta fmax gainmu gainomega) s =
      .next (s.raise (Instr.pskCfg k sps ted alpha beta fmax gainmu gainomega).header .state) := by
  change execPskCfg k sps ted alpha beta fmax gainmu gainomega s = _
  rw [execPskCfg, withSlot_present hk, if_pos hstate, fail]

variable (hstate : (s.slot k.toNat).src.state ≠ .running)
include hstate

theorem exec_pskCfg_of_illegal
    (hbad : ¬ (legalSps s.cfg.elOffset sps && legalGain alpha && legalGain beta && legalFmax fmax &&
      legalGain gainmu && legalGain gainomega) = true) :
    exec (.pskCfg k sps ted alpha beta fmax gainmu gainomega) s =
      .next (s.raise (Instr.pskCfg k sps ted alpha beta fmax gainmu gainomega).header .operand) := by
  change execPskCfg k sps ted alpha beta fmax gainmu gainomega s = _
  rw [execPskCfg, withSlot_present hk, if_neg hstate, if_neg hbad, fail]

theorem exec_pskCfg_of_legal
    (hok : (legalSps s.cfg.elOffset sps && legalGain alpha && legalGain beta && legalFmax fmax &&
      legalGain gainmu && legalGain gainomega) = true) :
    exec (.pskCfg k sps ted alpha beta fmax gainmu gainomega) s = .next (s.put k
      { s.slot k.toNat with psk := pskInit sps ted alpha beta fmax gainmu gainomega } []) := by
  change execPskCfg k sps ted alpha beta fmax gainmu gainomega s = _
  rw [execPskCfg, withSlot_present hk, if_neg hstate, if_pos hok]
  exact succeed_eq (by simp) _

end

/-! ### The steps -/

section
variable {s : State} {k : BitVec 8} (hk : Standalone s k)
include hk

theorem exec_pskStep_of_unset (x : C32) (hcfgd : (s.slot k.toNat).psk.cfgd = false) :
    exec (.pskStep k x) s = .next (s.raise (0x61000000#32 ||| slotBits k) .notcfg) := by
  change execPskStep k x s = _
  rw [execPskStep, withStandalone_of_standalone hk, if_pos hcfgd, header_pskStep, fail]

theorem exec_pskStep_of_set (x : C32) (hcfgd : (s.slot k.toNat).psk.cfgd = true) :
    exec (.pskStep k x) s =
      .next ((s.store k.toNat (pskOne s.cfg (workOn (s.slot k.toNat)) x)).answering
        (stepResults (pskRun s.cfg.elOffset (s.slot k.toNat).psk x).2)) := by
  change execPskStep k x s = _
  rw [execPskStep, withStandalone_of_standalone hk, if_neg (by simp [hcfgd])]
  refine succeed_eq ?_ _
  unfold stepResults
  split <;> simp [wordsC32]

theorem exec_pskStepblk_of_unset (xs : List C32) (hcfgd : (s.slot k.toNat).psk.cfgd = false) :
    exec (.pskStepblk k xs) s =
      .next (s.raise (0x62000000#32 ||| slotBits k ||| BitVec.ofNat 32 (xs.length % 65536)) .notcfg) := by
  change execPskStepblk k xs s = _
  rw [execPskStepblk, withStandalone_of_standalone hk, if_pos hcfgd, header_pskStepblk, fail]

theorem exec_pskStepblk_of_set (xs : List C32) (hcfgd : (s.slot k.toNat).psk.cfgd = true) :
    exec (.pskStepblk k xs) s =
      .next ((s.store k.toNat (xs.foldl (pskOne s.cfg) (workOn (s.slot k.toNat)))).answering
        [u32 (xs.foldl (pskOne s.cfg) (workOn (s.slot k.toNat))).nsym]) := by
  change execPskStepblk k xs s = _
  rw [execPskStepblk, withStandalone_of_standalone hk, if_neg (by simp [hcfgd])]
  exact succeed_eq (by simp) _

end

theorem stepResults_eq (e : Option SymbolEvent) :
    stepResults e = e.elim [0#32, 0#32, 0#32] fun e => [1#32, e.z.i, e.z.q] := by
  cases e <;> rfl

/-- The operand tests one by one. -/
theorem legal_iff (elOffset : Nat) (sps : BitVec 8) (alpha beta fmax gainmu gainomega : F32) :
    (legalSps elOffset sps && legalGain alpha && legalGain beta && legalFmax fmax && legalGain gainmu &&
      legalGain gainomega) = true ↔
    4 ≤ sps.toNat ∧ sps.toNat ≤ 127 ∧ (elOffset : Int) ≤ (sps.toNat / 2 : Nat) - 1 ∧
      (fle fZERO alpha = true ∧ fle alpha fONE = true) ∧ (fle fZERO beta = true ∧ fle beta fONE = true) ∧
      (fle fZERO fmax = true ∧ fle fmax fPI = true) ∧ (fle fZERO gainmu = true ∧ fle gainmu fONE = true) ∧
      (fle fZERO gainomega = true ∧ fle gainomega fONE = true) := by
  simp only [Bool.and_eq_true, legalSps_iff, legalGain, legalFmax, and_assoc]

/-- Settles O45: the records, the read-out, the configuration's tests in order, and the step. -/
theorem pskCommandsAnswer : Obligations.PskCommandsAnswer := by
  intro k sps ted alpha beta fmax gainmu gainomega x s sl h ok nom
  have hheader : (Instr.pskCfg k sps ted alpha beta fmax gainmu gainomega).header = h := header_pskCfg ..
  have hlegal := legal_iff s.cfg.elOffset sps alpha beta fmax gainmu gainomega
  refine ⟨congrArg (· :: _) hheader, congrArg (· :: _) (header_pskStep k x), congrArg (· :: []) (header_pskGetstate k),
    fun hk => ⟨exec_pskGetstate hk, fun hrunning => ?_, fun hstate hbad => ?_, fun hstate hok =>
      exec_pskCfg_of_legal hk hstate (hlegal.mpr hok)⟩, fun hk => ⟨exec_pskStep_of_unset hk x, fun hcfgd => ?_⟩⟩
  · rw [exec_pskCfg_of_running hk hrunning, hheader]
  · rw [exec_pskCfg_of_illegal hk hstate (mt hlegal.mp hbad), hheader]
  · rw [exec_pskStep_of_set hk x hcfgd, pskOne_workOn, stepResults_eq]
    rfl

/-! ### The block -/

/-- A step writes the loop and keeps it configured. -/
theorem stepsBy_pskStep (k : BitVec 8) :
    StepsBy k (.pskStep k) pskOne (fun sl => sl.psk.cfgd = true) fun c sl x =>
      stepResults (pskRun c.elOffset sl.psk x).2 where
  exec _ x hk hcfgd := exec_pskStep_of_set hk x hcfgd
  adds := pskOne_adds
  keeps c sl x hcfgd := by
    rw [pskOne_sl]
    exact ⟨(pskRun_cfgd x).trans hcfgd, rfl⟩

/-- A step's first result is its number of symbols. -/
theorem toNat_stepResults (c : Config) (sl : Slot) (x : C32) :
    ((stepResults (pskRun c.elOffset sl.psk x).2).getD 0 0).toNat = (pskOne c (workOn sl) x).nsym := by
  rw [pskOne_workOn]
  cases (pskRun c.elOffset sl.psk x).2 <;> rfl

/-- Settles O47: the steps store the block's work, and their first results add up to its symbols. -/
theorem pskStepblkIsItsSteps : Obligations.PskStepblkIsItsSteps := by
  intro k xs s
  refine ⟨?_, fun hk => exec_pskStepblk_of_unset hk xs, fun hk hslot hcfgd => ?_⟩
  · rw [encode, header_pskStepblk]
    exact Blocks.record_eq _ xs
  · have h := stepsBy_pskStep k
    intro t
    have hnsym : sumOfResults s t 1 = _ := h.sumOfResults_eq (count := Work.nsym) xs hk hslot hcfgd (fun _ _ => rfl)
      (fun _ => rfl) toNat_stepResults
    rw [exec_pskStepblk_of_set hk xs hcfgd, h.store_foldl xs hk hslot hcfgd, hnsym]
    rfl

/-! ### The first symbol (R227) -/

/-- Samples up to the next sampling instant give one symbol if they reach it, else none. -/
theorem nsym_foldl_pskOne (c : Config) (xs : List C32) (w : Work) (hpos : 0 < w.sl.psk.skip.toNat)
    (hlen : xs.length ≤ w.sl.psk.skip.toNat) :
    (xs.foldl (pskOne c) w).nsym = w.nsym + if xs.length = w.sl.psk.skip.toNat then 1 else 0 := by
  induction xs generalizing w with
  | nil => rw [if_neg (by simpa using hpos.ne)]; rfl
  | cons x xs ih =>
    rw [List.length_cons] at hlen
    have hnsym : (pskOne c w x).nsym = w.nsym + if w.sl.psk.skip = 1#16 then 1 else 0 := by
      rw [Sources.pskOne_eq]
      simp only [pskRun_isSome_iff]
    by_cases hdue : w.sl.psk.skip = 1#16
    · rw [hdue] at hlen
      obtain rfl : xs = [] := List.length_eq_zero_iff.mp (Nat.le_zero.mp (Nat.le_of_succ_le_succ hlen))
      rw [List.foldl_cons, List.foldl_nil, hnsym, if_pos hdue, hdue]
      rfl
    · have hskip : (pskOne c w x).sl.psk.skip.toNat = w.sl.psk.skip.toNat - 1 := by
        rw [pskOne_sl, pskRun_of_not_due hdue]
        exact BitVec.toNat_sub_of_le (BitVec.le_def.mpr hpos)
      have hne : w.sl.psk.skip.toNat ≠ 1 := fun h => hdue (BitVec.eq_of_toNat_eq h)
      rw [List.foldl_cons, ih _ (by omega) (by omega), hnsym, if_neg hdue, hskip, List.length_cons]
      simp only [show xs.length = w.sl.psk.skip.toNat - 1 ↔ xs.length + 1 = w.sl.psk.skip.toNat by omega]
      rfl

/-- Settles O48: the counter of a new loop starts at two periods. -/
theorem firstSymbolAfterTwoPeriods : Obligations.FirstSymbolAfterTwoPeriods := by
  intro k sps ted alpha beta fmax gainmu gainomega xs s hk hsps hpsk hlen
  have hskip : (s.slot k.toNat).psk.skip.toNat = 2 * sps.toNat := by
    rw [hpsk]
    exact Nat.mod_eq_of_lt (by have := sps.isLt; omega)
  have hnsym := nsym_foldl_pskOne s.cfg xs (workOn (s.slot k.toNat)) (by rw [workOn_sl]; omega)
    (by rw [workOn_sl, hskip]; exact hlen)
  refine ⟨_, exec_pskStepblk_of_set hk xs (by rw [hpsk]; rfl), ?_⟩
  rw [answering_resp, State.store_resp, hnsym, workOn_sl, hskip]
  by_cases h : xs.length = 2 * sps.toNat <;> simp only [h, if_true, if_false] <;> rfl

end Sys2Proof.Proofs.PskCommands
end
